-- ==== Sys2Proof/Word.lean ====
section
/-! DEFINITION. The word types of the block: the byte it receives and transmits (rules R33, R55) and the
10-bit digit code (rule R46). -/

namespace Sys2Proof

/-- An 8-bit value: one command word (rule R55) or one transmitted byte (rule R33). -/
abbrev Byte := BitVec 8

/-- A digit code: "a 10-bit pattern, one bit per tube cathode", active-low, exactly 10 bits wide (rule R46). -/
abbrev Code := BitVec 10

/-- A digit value: 0..9 are decimal digits, 10 is blank (rule R45). -/
abbrev Digit := Fin 11

end Sys2Proof
end

