-- ==== Sys2Proof/Syntax.lean ====
section
/-! DEFINITION. The four operations of rule R4, one constructor per row of spec/opcode_table.json, with the
operand fields of rule R55 at their encoded widths. -/

namespace Sys2Proof

/-- An operation of the block. The operands are the raw fields of the command word: `SETDIGIT` can carry a
bad position or a bad value, which its meaning rejects (rule R66). -/
inductive Instr where
  /-- `setDigit(position, value)`: SETDIGIT pos, val (rule R65). -/
  | setdigit (pos : BitVec 3) (val : BitVec 4)
  /-- `commit()`: COMMIT (rule R75). -/
  | commit
  /-- `setHighVoltage(enabled)`: SETHV en (rule R110). -/
  | sethv (en : Bool)
  /-- `setIndicatorLamp(enabled)`: SETLAMP en (rule R111). -/
  | setlamp (en : Bool)
deriving DecidableEq, Repr

end Sys2Proof
end

