-- ==== Sys2Proof/WellFormed.lean ====
section
/-! DEFINITION. Which instructions have operands in the ranges that the spec calls valid (rules R45, R50, R60). -/

namespace Sys2Proof

/-- Position in 1..6 (rule R50). -/
def positionOk (pos : BitVec 3) : Bool := 1 ≤ pos.toNat && pos.toNat ≤ 6

/-- Digit value in 0..10 (rule R45). -/
def valueOk (val : BitVec 4) : Bool := val.toNat ≤ 10

/-- The operand ranges of rule R60. COMMIT has no operand; both values of `en` are valid. -/
def Instr.wellFormed : Instr → Bool
  | .setdigit pos val => positionOk pos && valueOk val
  | .commit => true
  | .sethv _ => true
  | .setlamp _ => true

end Sys2Proof
end

