-- ==== Sys2Proof/Decode.lean ====
section
/-! DEFINITION. The command word: the opcode rows of rule R55, the row-level decoder that the step uses, the
total decoder of rule R56 that rejects by name, and the encoder (rules R55, R60). -/

namespace Sys2Proof

/-- Why a command word is rejected (the cause table of rules R122, R123, R124). -/
inductive Cause where
  /-- Cause 1: SETDIGIT with `pos` 0 or 7 (rule R122). -/
  | badPosition
  /-- Cause 2: SETDIGIT with `pos` in 1..6 and `val` in 11..15 (rule R123). -/
  | badValue
  /-- Cause 3: bit 7 set and no row of rule R55 matches (rule R124). -/
  | reservedCommand
deriving DecidableEq, Repr

/-- The 2-bit cause code (rule R20). -/
def Cause.code : Cause → BitVec 2
  | .badPosition => 1
  | .badValue => 2
  | .reservedCommand => 3

/-- The rows of the opcode table, in the order of rule R55. -/
inductive Row where
  | setdigit
  | commit
  | sethv
  | setlamp
deriving DecidableEq, Repr

/-- All rows, in the order of rule R55. -/
def Row.all : List Row := [.setdigit, .commit, .sethv, .setlamp]

/-- The mask column of rule R55. -/
def Row.mask : Row → Byte
  | .setdigit => 0x80
  | .commit => 0xFF
  | .sethv => 0xFE
  | .setlamp => 0xFE

/-- The match column of rule R55. -/
def Row.pattern : Row → Byte
  | .setdigit => 0x00
  | .commit => 0x80
  | .sethv => 0x90
  | .setlamp => 0xA0

/-- `(word & mask) == match` (rule R55). -/
def Row.selects (r : Row) (w : Byte) : Bool := w &&& r.mask == r.pattern

/-- The operation of row `r` with the operand fields of word `w`: `pos` = bits 6:4, `val` = bits 3:0,
`en` = bit 0 (rule R55). -/
def Row.read (w : Byte) : Row → Instr
  | .setdigit => .setdigit (w.extractLsb' 4 3) (w.extractLsb' 0 4)
  | .commit => .commit
  | .sethv => .sethv w[0]
  | .setlamp => .setlamp w[0]

/-- The row-level decoder: "A word selects the first row whose `(word & mask) == match`" (rule R55); no row
means ReservedCommand (rule R124). Operand ranges are checked by the meaning of SETDIGIT (rule R66,
assumption 10). -/
def readWord (w : Byte) : Except Cause Instr :=
  match Row.all.find? (·.selects w) with
  | some r => .ok (r.read w)
  | none => .error .reservedCommand

/-- The decoder of rule R56, total on all 256 words: position checked first, then value. -/
def decode (w : Byte) : Except Cause Instr :=
  if w[7] = false then
    let p := w.extractLsb' 4 3
    let v := w.extractLsb' 0 4
    if p = 0 ∨ p = 7 then .error .badPosition
    else if 10 < v.toNat then .error .badValue
    else .ok (.setdigit p v)
  else if w = 0x80 then .ok .commit
  else if w &&& 0xFE = 0x90 then .ok (.sethv w[0])
  else if w &&& 0xFE = 0xA0 then .ok (.setlamp w[0])
  else .error .reservedCommand

/-- The row-level decoder on a word numbered as spec/opcode_table.json numbers it; every command is one 8-bit
word (rule R59), so more than 8 bits is no command. -/
def decodeTableWord (nbits w : Nat) : Option Instr :=
  if nbits ≤ 8 then (readWord (BitVec.ofNat 8 (w % 2 ^ nbits))).toOption else none

/-- The command word of an operation: the word column of rule R60 (`(p << 4) | v`, `0x80`, `0x90 | e`,
`0xA0 | e`). -/
def encode : Instr → Byte
  | .setdigit pos val => (pos.setWidth 8 <<< 4) ||| val.setWidth 8
  | .commit => 0x80
  | .sethv en => 0x90 ||| (BitVec.ofBool en).setWidth 8
  | .setlamp en => 0xA0 ||| (BitVec.ofBool en).setWidth 8

end Sys2Proof
end

