-- ==== Sys2Proof/Config.lean ====
section
/-! DEFINITION. What one configuration of the block fixes: the constants of rule R5, the open parameters of
rule R6 as plain data, and the two values that the spec leaves at "any value" (U9). -/

namespace Sys2Proof

/-! ## Constants of rule R5 -/

/-- NUM_TUBES: tube positions, slots in the array. -/
abbrev Config.numTubes : Nat := 6
/-- CODE_W: bits per digit code. -/
abbrev Config.codeW : Nat := 10
/-- TABLE_LEN: entries of the digit-code table. -/
abbrev Config.tableLen : Nat := 11
/-- BLANK: the digit value that means "blank (tube off)". -/
abbrev Config.blank : Nat := 10
/-- ACC_W: width of the shift accumulator. -/
abbrev Config.accW : Nat := 16
/-- PAD_BITS: leading padding bits; also the initial pending-bit-count. -/
abbrev Config.padBits : Nat := 4
/-- BYTE_W: bits per transmitted byte. -/
abbrev Config.byteW : Nat := 8
/-- DATA_BITS: NUM_TUBES x CODE_W. -/
abbrev Config.dataBits : Nat := 60
/-- FRAME_BYTES: bytes per commit. -/
abbrev Config.frameBytes : Nat := 8
/-- AP_REPS: outer repetitions of the anti-poisoning host program. -/
abbrev Config.apReps : Nat := 4
/-- AP_HOLD_MS: hold per anti-poisoning step, in milliseconds (host program). -/
abbrev Config.apHoldMs : Nat := 500

/-! ## Open parameters of rule R6 -/

/-- The parameters that the spec leaves open, as plain data. A state carries one such record in its field
`cfg` and no step changes it, so a claim about every state is a claim about every admissible parameter
(assumption 1). -/
structure Config where
  /-- CATHODE_BIT: entry v is the bit that digit value v clears in its code (rules R6, R47; D4). -/
  cathode : Vector (Fin 10) 10
  /-- TX_MSB_FIRST: the serial peripheral sends a byte's bit 7 first (rules R6, R34; D10). -/
  txMsbFirst : Bool
  /-- LATCH_HIGH_CYCLES: clock cycles the latch line stays high; no rule reads it (rule R6; D12). -/
  latchHighCycles : Nat
  /-- CHAIN_LEN: stages of the downstream shift-register chain (rules R6, R24; D25). -/
  chainLen : Nat
deriving DecidableEq, Repr

/-- The admissible parameters of rule R6: `cathode` injective (hence a permutation), at least one cycle of
latch pulse, 60 to 64 stages of chain. -/
abbrev Config.Admissible (c : Config) : Prop :=
  (∀ v w : Fin 10, c.cathode[v] = c.cathode[w] → v = w) ∧
  1 ≤ c.latchHighCycles ∧ 60 ≤ c.chainLen ∧ c.chainLen ≤ 64

/-- The defaults of rule R6: digit v clears bit v, most-significant bit first, one cycle, 64 stages. -/
def Config.default : Config where
  cathode := #v[0, 1, 2, 3, 4, 5, 6, 7, 8, 9]
  txMsbFirst := true
  latchHighCycles := 1
  chainLen := 64

/-! ## Values the spec leaves at "any value" (rule R143; U9) -/

/-- What the shift-register chain holds when the block leaves reset: unspecified (assumption 6). -/
opaque Config.chainAtReset : BitVec 64

/-- What the latched outputs show when the block leaves reset: unspecified (assumption 6). -/
opaque Config.visAtReset : BitVec 60

end Sys2Proof
end

