-- ==== Sys2Proof/Machine/State.lean ====
section
/-! DEFINITION. The state: the block's registers (rules R10 to R20), the environment that its outputs drive
(rule R24), the inputs the host will give it, and the event trace; the reasons a step stops; reset. -/

namespace Sys2Proof.Machine

/-- The sequencing state (rule R16): the five serializer states of the document and the resting state. -/
inductive Fsm where
  | idle
  | init
  | check
  | fill
  | output
  | done
deriving DecidableEq, Repr

/-- The events of rule R8. -/
inductive Event where
  /-- `Tx(b)`: one use of the "transmit one byte" capability. -/
  | tx (b : Byte)
  /-- The latch line goes from low to high. -/
  | latchRise
  /-- The latch line goes from high to low. -/
  | latchFall
  /-- `Hv(e)`: the high-voltage enable line is driven to level e. -/
  | hv (e : Bool)
  /-- `Lamp(e)`: the indicator-lamp enable line is driven to level e. -/
  | lamp (e : Bool)
  /-- `Reject(c)`: a command was refused with cause c. -/
  | reject (c : Cause)
deriving DecidableEq, Repr

/-- Why the machine is stuck. The spec gives these configurations no step and never reaches them from reset
(rule R92; D21, U6). Every one of them is safe: the model stops where the hardware is unspecified. -/
inductive Fault where
  /-- An odd `pend`, in any FSM state. Raised by every step without reset. Safe (rule R92; D21). -/
  | stuckOddPend
  /-- CHECK with no slot left and no byte buffered (`idx` = 6, `pend` < 8). Raised by CHECK. Safe (rule R92). -/
  | stuckCheck
  /-- FILL with `idx` > 5 or `pend` > 6. Raised by FILL. Safe (the `require` of rule R79). -/
  | stuckFill
  /-- OUTPUT with `pend` < 8. Raised by OUTPUT. Safe (the `require` of rule R81). -/
  | stuckOutput
  /-- The final byte with other than 8 bits buffered. Raised by OUTPUT. Safe (the note of rule R82). -/
  | stuckLastByte
deriving DecidableEq, Repr

/-- Why an instruction has no meaning. -/
inductive Refusal where
  /-- An instruction that the model does not give a meaning yet. Raised by no arm of `exec` in this model. Safe. -/
  | notModelled (mnemonic : String)
deriving DecidableEq, Repr

/-- The whole state. -/
structure State where
  /-- The tube position array: six digit codes, `slot[k]` for NX(6-k) (rules R10, R50). -/
  slot : Vector Code 6
  /-- The shift accumulator, 16 bits (rule R13). -/
  acc : BitVec 16
  /-- The pending-bit-count, 5 bits (rule R14). -/
  pend : BitVec 5
  /-- The next-slot-index, 3 bits (rule R15). -/
  idx : BitVec 3
  /-- The sequencing state (rule R16). -/
  fsm : Fsm
  /-- Level of the register latch-enable line (rule R17). -/
  latch : Bool
  /-- Level of the high-voltage enable line (rule R18). -/
  hv : Bool
  /-- Level of the indicator-lamp enable line (rule R19). -/
  lamp : Bool
  /-- The sticky error flag (rule R20). -/
  err : Bool
  /-- The code of the first reject since reset, 0 for none (rule R20). -/
  ecause : BitVec 2
  /-- Environment: the shift-register chain, stage i at bit i; stages from CHAIN_LEN on do not exist and read
  0 (rule R24; assumption 5). -/
  sr : BitVec 64
  /-- Environment: the 60 latched output bits (rule R24). -/
  vis : BitVec 60
  /-- The model's own: the parameters of this configuration (rule R6; assumption 1). -/
  cfg : Config
  /-- The model's own: the level of the `rst` input at this step and at the following ones; an exhausted list
  means not asserted (rule R140; assumption 3). -/
  rstIn : List Bool
  /-- The model's own: what the host presents at the command port. `some w` at the head is the word now at the
  port, which stays until it is accepted; `none` at the head is one IDLE step with nothing presented (rules R38, R61;
  assumption 2). -/
  cmdIn : List (Option Byte)
  /-- The model's own: the event trace, oldest event first (rules R7, R8; assumption 4). -/
  trace : List Event
deriving DecidableEq, Repr

/-- The state right after reset (rules R27, R28), with the default parameters, no inputs queued and no event
emitted; what the chain and its outputs hold is unspecified (rule R143). -/
def State.reset : State where
  slot := Vector.replicate 6 0x3FF
  acc := 0
  pend := 0
  idx := 0
  fsm := .idle
  latch := false
  hv := false
  lamp := false
  err := false
  ecause := 0
  sr := Config.chainAtReset
  vis := Config.visAtReset
  cfg := Config.default
  rstIn := []
  cmdIn := []
  trace := []

end Sys2Proof.Machine
end

