-- ==== Sys2Proof/Machine/Environment.lean ====
section
/-! DEFINITION. How the environment outside the block answers its events: the shift-register chain and its
output latches (rules R24 to R26). Not block state; it states the visibility guarantees. -/

namespace Sys2Proof.Machine

/-- One bit per existing stage of the chain: bits 0 to CHAIN_LEN-1 (rule R24). -/
def chainMask (cfg : Config) : BitVec 64 := BitVec.allOnes 64 >>> (64 - cfg.chainLen)

/-- One bit enters at stage 0, every older bit moves one stage further, a bit past stage CHAIN_LEN-1 is lost
(rule R25). -/
def chainShiftIn (cfg : Config) (sr : BitVec 64) (b : Bool) : BitVec 64 :=
  ((sr <<< 1) ||| (BitVec.ofBool b).setWidth 64) &&& chainMask cfg

/-- The bits of a byte in the order in which the serial peripheral sends them: bit 7 first when TX_MSB_FIRST,
bit 0 first otherwise (rules R25, R34). -/
def wireBits (cfg : Config) (b : Byte) : List Bool :=
  if cfg.txMsbFirst then [b[7], b[6], b[5], b[4], b[3], b[2], b[1], b[0]]
  else [b[0], b[1], b[2], b[3], b[4], b[5], b[6], b[7]]

/-- The chain after one transmitted byte (rule R25). -/
def chainTakeByte (cfg : Config) (sr : BitVec 64) (b : Byte) : BitVec 64 :=
  (wireBits cfg b).foldl (chainShiftIn cfg) sr

/-- The chain after an event: only `Tx` moves it (rules R25, R26). -/
def chainAfter (cfg : Config) (sr : BitVec 64) : Event → BitVec 64
  | .tx b => chainTakeByte cfg sr b
  | .latchRise => sr
  | .latchFall => sr
  | .hv _ => sr
  | .lamp _ => sr
  | .reject _ => sr

/-- The latched outputs after an event: captured from `sr[59:0]` at `LatchRise`, and at no other time
(rule R26). -/
def visAfter (sr : BitVec 64) (vis : BitVec 60) : Event → BitVec 60
  | .tx _ => vis
  | .latchRise => sr.extractLsb' 0 60
  | .latchFall => vis
  | .hv _ => vis
  | .lamp _ => vis
  | .reject _ => vis

/-- The ten cathode lines of tube NXp as latched: `vis[10p-1 : 10p-10]` (rule R104). -/
def visCode (vis : BitVec 60) (p : Nat) : Code := vis.extractLsb' (10 * p - 10) 10

end Sys2Proof.Machine
end

