-- ==== Sys2Proof/Machine/Flags.lean ====
section
/-! DEFINITION. The status flags and outputs: the sticky error record (rule R20), the derived `busy` and
`cmd_ready` outputs (rules R21, R38) and the FSM state codes (rule R58). -/

namespace Sys2Proof.Machine

/-- The error record after a reject: `if err == 0 then ecause <- c ; err <- 1` (rule R121). -/
def recordCause (c : Cause) (s : State) : State :=
  { s with ecause := if s.err then s.ecause else c.code, err := true }

/-- `busy` = 1 exactly when `fsm` is not IDLE (rule R21). -/
def busy (s : State) : Bool := s.fsm != .idle

/-- The block accepts a command only in IDLE (rule R38; D2). -/
def cmdReady (s : State) : Bool := s.fsm == .idle

/-- The 3-bit code of an FSM state; not observable (rule R58). -/
def fsmCode : Fsm → BitVec 3
  | .idle => 0
  | .init => 1
  | .check => 2
  | .fill => 3
  | .output => 4
  | .done => 5

end Sys2Proof.Machine
end

