-- ==== Sys2Proof/Machine/Ops.lean ====
section
/-! DEFINITION. The named operations: emitting an event, writing a slot and a line, rejecting a command (the
block's one exception, rule R121), applying reset (rule R140), and the inputs of a step (rules R38, R140).
There is no return from a reject: nothing is saved and no handler is entered (rule R126). -/

namespace Sys2Proof.Machine

/-- `emit E`: append E to the trace (rule R7); the environment answers it (rules R25, R26). -/
def emit (e : Event) (s : State) : State :=
  { s with trace := s.trace ++ [e]
           sr := chainAfter s.cfg s.sr e
           vis := visAfter s.sr s.vis e }

/-- `slot[k] <- c`: all 10 bits of one slot at once (rule R32). -/
def writeSlot (k : Fin 6) (c : Code) (s : State) : State :=
  { s with slot := s.slot.set k.val c }

/-- `hv <- e ; emit Hv(e)` (rule R110). -/
def driveHv (e : Bool) (s : State) : State := emit (.hv e) { s with hv := e }

/-- `lamp <- e ; emit Lamp(e)` (rule R111). -/
def driveLamp (e : Bool) (s : State) : State := emit (.lamp e) { s with lamp := e }

/-- `fsm <- S`: the FSM state that the next step runs (rule R7). -/
def goto (f : Fsm) (s : State) : State := { s with fsm := f }

/-- `reject(c)`: record the cause, emit `Reject(c)`, change nothing else (rule R121). -/
def reject (c : Cause) (s : State) : State := emit (.reject c) (recordCause c s)

/-- Reset replaces the block's registers by their reset values and emits nothing (rule R140); it does not
touch the parameters, the environment or anything else outside the block (rule R141). -/
def applyReset (s : State) : State :=
  { s with slot := Vector.replicate 6 0x3FF
           acc := 0
           pend := 0
           idx := 0
           fsm := .idle
           latch := false
           hv := false
           lamp := false
           err := false
           ecause := 0 }

/-! ## The inputs of a step -/

/-- `rst` is asserted at this step (rule R140). -/
def rstNow (s : State) : Bool := s.rstIn.headD false

/-- The command word presented at the port at this step, if any (rule R76). -/
def cmdNow (s : State) : Option Byte := s.cmdIn.headD none

/-- One step passes in which the port is not looked at, a serializer step or a reset: a word at the port waits
unchanged (rule R38), and a hold queued there has not begun, since it passes in IDLE (rules R61, R134;
assumption 2). -/
def tick (s : State) : State := { s with rstIn := s.rstIn.tail }

/-- One IDLE step passes at the inputs: the word at the port is consumed (rule R76), or one step with nothing
presented is over. -/
def consume (s : State) : State :=
  { s with rstIn := s.rstIn.tail, cmdIn := s.cmdIn.tail }

end Sys2Proof.Machine
end

