-- ==== Sys2Proof/Machine/Commit.lean ====
section
/-! DEFINITION. COMMIT and the bit-packing serializer: the FSM states INIT, CHECK, FILL and OUTPUT
(spec/41_commit_serializer.md). -/

namespace Sys2Proof.Machine

/-- COMMIT in the step that accepts it: `fsm <- INIT` and nothing else (rule R75). -/
def execCommit (s : State) : Host.Outcome State Fault Refusal := .next (goto .init s)

/-- INIT: clear the accumulator, count the 4 padding bits as buffered, hold the latch line low (rule R77). -/
def stepInit (s : State) : Host.Outcome State Fault Refusal :=
  .next { s with acc := 0, pend := BitVec.ofNat 5 Config.padBits, idx := 0, latch := false, fsm := .check }

/-- CHECK: FILL when fewer than 8 bits are buffered, else OUTPUT (rule R78); stuck when a FILL would find no
slot left (rule R92). -/
def stepCheck (s : State) : Host.Outcome State Fault Refusal :=
  if s.pend < 8 then
    if s.idx = 6 then .fault .stuckCheck else .next (goto .fill s)
  else .next (goto .output s)

/-- FILL: OR the next code in just below the buffered bits (rule R79). -/
def stepFill (s : State) : Host.Outcome State Fault Refusal :=
  if h : s.idx.toNat < 6 ∧ s.pend.toNat ≤ 6 then
    .next { s with acc := s.acc ||| ((s.slot[s.idx.toNat]'h.1).setWidth 16 <<< (6 - s.pend.toNat))
                   pend := s.pend + BitVec.ofNat 5 Config.codeW
                   idx := s.idx + 1
                   fsm := .check }
  else .fault .stuckFill

/-- The update of rules R81 and R82 for one byte: `emit Tx(acc[15:8]) ; acc <- acc << 8 ; pend <- pend - 8`. -/
def sendByte (s : State) : State :=
  { emit (.tx (s.acc.extractLsb' 8 8)) s with acc := s.acc <<< 8, pend := s.pend - 8 }

/-- OUTPUT: send the top byte and return to CHECK (rule R81); with all six slots consumed, send the final byte
in the same step and go to DONE (rule R82). -/
def stepOutput (s : State) : Host.Outcome State Fault Refusal :=
  if s.pend < 8 then .fault .stuckOutput
  else if s.idx = 6 then
    if s.pend = 16 then .next (goto .done (sendByte (sendByte s))) else .fault .stuckLastByte
  else .next (goto .check (sendByte s))

end Sys2Proof.Machine
end

