-- ==== Sys2Proof/Machine/Operands.lean ====
section
/-! DEFINITION. Operand assembly (rule R51): a position selects a slot, a digit value selects a table entry,
`enabled` is a line level; and the digit-code table itself (rules R47, R48, R70). -/

namespace Sys2Proof.Machine

/-- The slot of position p: fold index k = 6 - p for p in 1..6, none for 0 and 7 (rules R50, R122). -/
def foldIndex (pos : BitVec 3) : Option (Fin 6) :=
  if h : 1 ≤ pos.toNat ∧ pos.toNat ≤ 6 then some ⟨6 - pos.toNat, by omega⟩ else none

/-- The digit-code table: `0x3FF & ~(1 << CATHODE_BIT(v))` for v in 0..9, `0x3FF` for 10 (rule R47). -/
def rom (cfg : Config) (v : Digit) : Code :=
  if h : v.val < 10 then 0x3FF &&& ~~~((1 : Code) <<< (cfg.cathode[v.val]'h).val) else 0x3FF

/-- The digit encoder as a pure function: bounds checked, none from 11 on (rule R70). -/
def encodeDigit (cfg : Config) (val : BitVec 4) : Option Code :=
  if h : val.toNat ≤ 10 then some (rom cfg ⟨val.toNat, by omega⟩) else none

/-- The digit value of a code, if the code is a table entry (rule R48 (d)). -/
def unrom (cfg : Config) (c : Code) : Option Digit :=
  if c = 0x3FF then some 10 else (List.finRange 11).find? fun v => rom cfg v == c

/-- The level of an output line for `enabled`: true is high (rule R60; D17). -/
def lineLevel (en : Bool) : Bool := en

end Sys2Proof.Machine
end

