-- ==== Sys2Proof/Machine/Lines.lean ====
section
/-! DEFINITION. SETHV and SETLAMP, the auxiliary lines (spec/43_aux_lines.md). -/

namespace Sys2Proof.Machine

/-- SETHV e: `hv <- e ; emit Hv(e)`, whether or not the level changes (rule R110). -/
def execSethv (en : Bool) (s : State) : Host.Outcome State Fault Refusal :=
  .next (driveHv (lineLevel en) s)

/-- SETLAMP e: `lamp <- e ; emit Lamp(e)`, whether or not the level changes (rule R111). -/
def execSetlamp (en : Bool) (s : State) : Host.Outcome State Fault Refusal :=
  .next (driveLamp (lineLevel en) s)

end Sys2Proof.Machine
end

