-- ==== Sys2Proof/Machine/Setdigit.lean ====
section
/-! DEFINITION. SETDIGIT, the digit encoder (spec/40_setdigit.md). -/

namespace Sys2Proof.Machine

/-- SETDIGIT p, v in the step that accepts it: position checked first, then value, then
`slot[6 - p] <- ROM(v)` (rules R65, R66, R70). -/
def execSetdigit (pos : BitVec 3) (val : BitVec 4) (s : State) : Host.Outcome State Fault Refusal :=
  match foldIndex pos with
  | none => .next (reject .badPosition s)
  | some k =>
    match encodeDigit s.cfg val with
    | none => .next (reject .badValue s)
    | some c => .next (writeSlot k c s)

end Sys2Proof.Machine
end

