-- ==== Sys2Proof/Machine/Dispatch.lean ====
section
/-! DEFINITION. The meaning of every instruction, in the step that accepts it (rule R76, the IDLE arm). -/

namespace Sys2Proof.Machine

def exec (i : Instr) (s : State) : Host.Outcome State Fault Refusal :=
  match i with
  | .setdigit pos val => Sys2Proof.Machine.execSetdigit pos val s
  | .commit => Sys2Proof.Machine.execCommit s
  | .sethv en => Sys2Proof.Machine.execSethv en s
  | .setlamp en => Sys2Proof.Machine.execSetlamp en s

end Sys2Proof.Machine
end

