-- ==== Sys2Proof/Machine/Latch.lean ====
section
/-! DEFINITION. The latch-timing controller: the DONE state (spec/42_latch_controller.md). -/

namespace Sys2Proof.Machine

/-- `latch <- 1 ; emit LatchRise` (rule R100). -/
def latchUp (s : State) : State := emit .latchRise { s with latch := true }

/-- `latch <- 0 ; emit LatchFall` (rule R100). -/
def latchDown (s : State) : State := emit .latchFall { s with latch := false }

/-- DONE: one pulse of the latch line, all in one step, then IDLE (rule R100). -/
def stepDone (s : State) : Host.Outcome State Fault Refusal :=
  .next (goto .idle (latchDown (latchUp s)))

end Sys2Proof.Machine
end

