-- ==== Sys2Proof/Machine/Port.lean ====
section
/-! DEFINITION. The command port in IDLE and the dispatch on `fsm` (rules R38, R76, R92). -/

namespace Sys2Proof.Machine

/-- Run a command word that IDLE accepts: its operation, or `reject` when no row matches (rule R76). -/
def runWord (w : Byte) (s : State) : Host.Outcome State Fault Refusal :=
  match readWord w with
  | .ok i => exec i s
  | .error c => .next (reject c s)

/-- An IDLE step: no command, no change; otherwise the command is consumed and performed (rule R76). -/
def stepIdle (s : State) : Host.Outcome State Fault Refusal :=
  match cmdNow s with
  | none => .next (consume s)
  | some w => runWord w (consume s)

/-- One visit to the FSM state that `fsm` names (rule R76): IDLE looks at the port, the five serializer states do
not. -/
def visitState (s : State) : Host.Outcome State Fault Refusal :=
  match s.fsm with
  | .idle => stepIdle s
  | .init => stepInit (tick s)
  | .check => stepCheck (tick s)
  | .fill => stepFill (tick s)
  | .output => stepOutput (tick s)
  | .done => stepDone (tick s)

/-- One step without reset (rule R76): stuck with an odd `pend`, whatever the FSM state (rule R92; D21). -/
def stepNoReset (s : State) : Host.Outcome State Fault Refusal :=
  if s.pend.toNat % 2 = 0 then visitState s else .fault .stuckOddPend

/-- The block ready to run a given word next: in IDLE and not stuck, `rst` not asserted, the word at the port ahead
of everything else the host has queued. -/
def presentNext (w : Byte) (s : State) : State :=
  { s with fsm := .idle
           pend := if s.pend.toNat % 2 = 0 then s.pend else 0
           rstIn := false :: s.rstIn
           cmdIn := some w :: s.cmdIn }

end Sys2Proof.Machine
end

