-- ==== Sys2Proof/Machine/Step.lean ====
section
/-! DEFINITION. One step of the machine (rules R76, R140), and how a word is put where the next step takes its
command. -/

namespace Sys2Proof.Machine

/-- One step: reset wins over everything (rule R140), otherwise one visit to one FSM state (rule R76). -/
def step (s : State) : Host.Outcome State Fault Refusal :=
  if rstNow s then .next (applyReset (tick s)) else stepNoReset s

/-- `s` with the word `w` presented so that the very next step accepts it (assumption 14). -/
def State.withFetchWord (s : State) (nbits w : Nat) : State :=
  presentNext (BitVec.ofNat 8 (w % 2 ^ nbits)) s

end Sys2Proof.Machine
end

