-- ==== Sys2Proof/Machine/Frame.lean ====
section
/-! DEFINITION. The frame: six codes as 8 bytes, in closed form (rules R52, R53, R54, R89). The step function
does not call these; claims hold the serializer against them. -/

namespace Sys2Proof.Machine

/-- `a ‖ b` as one byte, a in the more-significant position (rule R7). -/
def join {m n : Nat} (a : BitVec m) (b : BitVec n) (h : m + n = 8) : Byte := (a ++ b).cast h

/-- `pack(c_0, ..., c_5)`, arguments in fold order (rule R89). -/
def pack (cs : Vector Code 6) : Vector Byte 8 :=
  #v[(cs[0].extractLsb' 6 4).setWidth 8,
     join (cs[0].extractLsb' 0 6) (cs[1].extractLsb' 8 2) rfl,
     cs[1].extractLsb' 0 8,
     cs[2].extractLsb' 2 8,
     join (cs[2].extractLsb' 0 2) (cs[3].extractLsb' 4 6) rfl,
     join (cs[3].extractLsb' 0 4) (cs[4].extractLsb' 6 4) rfl,
     join (cs[4].extractLsb' 0 6) (cs[5].extractLsb' 8 2) rfl,
     cs[5].extractLsb' 0 8]

/-- The stream S of six codes: 4 zero bits, then c_0 (NX6) down to c_5 (NX1) (rule R52). -/
def stream (cs : Vector Code 6) : BitVec 64 :=
  (0#4 ++ cs[0] ++ cs[1] ++ cs[2] ++ cs[3] ++ cs[4] ++ cs[5]).cast rfl

/-- 8 bytes read as one 64-bit value, byte 0 most significant (rule R33). -/
def streamOfBytes (b : Vector Byte 8) : BitVec 64 :=
  (b[0] ++ b[1] ++ b[2] ++ b[3] ++ b[4] ++ b[5] ++ b[6] ++ b[7]).cast rfl

/-- Frame decode: `c_k = S[59-10k : 50-10k]`, the padding ignored (rule R54). -/
def unpack (b : Vector Byte 8) : Vector Code 6 :=
  let s := streamOfBytes b
  #v[s.extractLsb' 50 10, s.extractLsb' 40 10, s.extractLsb' 30 10,
     s.extractLsb' 20 10, s.extractLsb' 10 10, s.extractLsb' 0 10]

end Sys2Proof.Machine
end

