-- ==== Sys2Proof/Machine/Pseudo.lean ====
section
/-! DEFINITION. The pseudo-operations of rule R61 and the anti-poisoning host program of rule R132, as what the
host presents at the port. They are outside the block; no step calls them. -/

namespace Sys2Proof.Machine

/-- What a host program does: issue an operation, or hold for a number of milliseconds with no command
presented and the block in IDLE (rule R61). -/
inductive HostOp where
  | issue (i : Instr)
  | hold (ms : Nat)
deriving DecidableEq, Repr

/-- The six positions in the ascending order of rule R61. -/
def positions : List (BitVec 3) := [1, 2, 3, 4, 5, 6]

/-- `SETALL v` (rule R61). -/
def setAll (v : BitVec 4) : List HostOp := positions.map fun p => .issue (.setdigit p v)

/-- `SHOW d1 ... d6` (rule R61). -/
def showDigits (d : Vector (BitVec 4) 6) : List HostOp :=
  (positions.zip d.toList).map (fun pd => .issue (.setdigit pd.1 pd.2)) ++ [.issue .commit]

/-- `BLANKALL` (rule R61). -/
def blankAll : List HostOp := setAll (BitVec.ofNat 4 Config.blank)

/-- One repetition of the anti-poisoning loop: v = 0, ..., 10 (rule R132). -/
def antipoisonRound : List HostOp :=
  (List.range Config.tableLen).flatMap fun v =>
    setAll (BitVec.ofNat 4 v) ++ [.issue .commit, .hold Config.apHoldMs]

/-- `ANTIPOISON`: the lamp off, then 4 repetitions (rules R61, R132). -/
def antipoison : List HostOp :=
  .issue (.setlamp false) :: (List.replicate Config.apReps antipoisonRound).flatten

/-- A host program as the entries of `cmdIn`. A hold is a stretch of IDLE steps with nothing presented (rules R61,
R134): behind a COMMIT it begins when `busy` has fallen (assumption 2). How many steps a millisecond takes is the
host's (rule R155). -/
def HostOp.present (stepsPerMs : Nat) : HostOp → List (Option Byte)
  | .issue i => [some (encode i)]
  | .hold ms => List.replicate (ms * stepsPerMs) none

end Sys2Proof.Machine
end

