-- ==== Sys2Proof/Safety.lean ====
section
/-! DEFINITION. What counts as a safe state, in the terms the claims use: the slot invariant (rule R12), the
reachable configurations (rules R84, R92), the accumulator invariant (rule R90), the error record (rule R20) and
the chain's length (rule R24); and the words of the claims about runs and events. -/

namespace Sys2Proof.Machine

/-- The values of (`pend`, `idx`) with each FSM state: the rows of rule R84's table; in IDLE and INIT what reset
or the previous commit left (rule R92). -/
def reachableCounts : Fsm → List (Nat × Nat)
  | .idle => [(0, 0), (0, 6)]
  | .init => [(0, 0), (0, 6)]
  | .check => [(4, 0), (14, 1), (6, 1), (16, 2), (8, 2), (0, 2), (10, 3), (2, 3), (12, 4), (4, 4), (14, 5),
      (6, 5), (16, 6)]
  | .fill => [(4, 0), (6, 1), (0, 2), (2, 3), (4, 4), (6, 5)]
  | .output => [(14, 1), (16, 2), (8, 2), (10, 3), (12, 4), (14, 5), (16, 6)]
  | .done => [(0, 6)]

/-- Everything below the buffered bits is zero: `acc[15-pend : 0]` = 0 (rule R90). -/
def AccClear (s : State) : Prop := ∀ i : Nat, i + s.pend.toNat < 16 → s.acc.getLsbD i = false

/-- The invariant of the machine. -/
structure StateInv (s : State) : Prop where
  /-- The parameters are admissible (rule R6). -/
  params : s.cfg.Admissible
  /-- Each slot holds one of the 11 table entries (rule R12). -/
  slots : ∀ k : Fin 6, ∃ v : Digit, s.slot[k] = rom s.cfg v
  /-- `latch` = 0 at every step boundary (rule R17). -/
  latch : s.latch = false
  /-- The triple (`fsm`, `pend`, `idx`) is a row of rule R84's table (rule R92). -/
  counts : (s.pend.toNat, s.idx.toNat) ∈ reachableCounts s.fsm
  /-- The accumulator invariant (rule R90). -/
  acc : AccClear s
  /-- `ecause` is 0 exactly while `err` = 0 (rule R20). -/
  status : s.ecause = 0 ↔ s.err = false
  /-- The chain holds nothing past its last stage (rule R24). -/
  chain : s.sr &&& chainMask s.cfg = s.sr

/-- `rst` is not asserted at this step nor at the next n - 1 steps. -/
def noResetFor (n : Nat) (s : State) : Prop := ∀ i : Nat, i < n → s.rstIn.getD i false = false

/-- The FSM state whose step may emit an event (rules R8, R102, R120). -/
def emittedIn : Event → Fsm
  | .tx _ => .output
  | .latchRise => .done
  | .latchFall => .done
  | .hv _ => .idle
  | .lamp _ => .idle
  | .reject _ => .idle

/-- The events of one commit of the given six codes' bytes: 8 `Tx`, then one latch pulse (rule R101). -/
def commitEvents (bytes : Vector Byte 8) : List Event :=
  bytes.toList.map Event.tx ++ [.latchRise, .latchFall]

end Sys2Proof.Machine
end

