-- ==== Sys2Proof/Certificates/Slice0/Obligations.lean ====
section
/-! DEFINITION. The statements for the provers. A record `{ s with … }` on the right of a result is the whole
frame: every field that it does not name keeps its value, the environment's `sr` and `vis` among them. -/

open Sys2Proof Sys2Proof.Machine

/-! ## Encoding -/

/-- Words written out from the encodings of rule R55 (vectors V13 to V28) decode to their operations. -/
def Obligations.SampleWordsDecode : Prop :=
  readWord 0b00010111 = .ok (.setdigit 1 7) ∧ readWord 0b00100000 = .ok (.setdigit 2 0) ∧
  readWord 0b01101010 = .ok (.setdigit 6 10) ∧ readWord 0b10000000 = .ok .commit ∧
  readWord 0b10010000 = .ok (.sethv false) ∧ readWord 0b10010001 = .ok (.sethv true) ∧
  readWord 0b10100000 = .ok (.setlamp false) ∧ readWord 0b10100001 = .ok (.setlamp true) ∧
  readWord 0b10000001 = .error .reservedCommand ∧ readWord 0b10010010 = .error .reservedCommand ∧
  decode 0b00101011 = .error .badValue ∧ decode 0b01111111 = .error .badPosition

/-- Rule R55: at most one row of the opcode table selects a word, so "the first row" is the only one. The bit
patterns are the spec's own (its decision D3, assumption 16). -/
def Obligations.OpcodeRowsNeverOverlap : Prop :=
  ∀ (w : Byte) (r q : Row), r.selects w = true → q.selects w = true → r = q

/-- Rule R56's counts over the 256 words: 66 valid SETDIGIT, 5 line and control words, 32 bad positions, 30 bad
values, 123 reserved words (the spec's decisions D3, D5 to D7, assumption 16). -/
def Obligations.DecodeCountsOfAllWords : Prop :=
  let all := (List.range 256).map fun n => decode (BitVec.ofNat 8 n)
  (all.countP fun r => match r with | .ok (.setdigit _ _) => true | _ => false) = 66 ∧
  (all.countP (· == .ok .commit)) = 1 ∧
  (all.countP fun r => match r with | .ok (.sethv _) => true | _ => false) = 2 ∧
  (all.countP fun r => match r with | .ok (.setlamp _) => true | _ => false) = 2 ∧
  (all.countP (· == .error .badPosition)) = 32 ∧
  (all.countP (· == .error .badValue)) = 30 ∧
  (all.countP (· == .error .reservedCommand)) = 123

/-- Rules R55, R56, R60: decoding an encoded operation gives it back, at the row level for every operand value
and through the total decoder for every well-formed one; an ill-formed SETDIGIT is rejected with its cause,
position first. -/
def Obligations.DecodeAfterEncodeIsIdentity : Prop :=
  ∀ i : Instr, readWord (encode i) = .ok i ∧
    (i.wellFormed = true → decode (encode i) = .ok i) ∧
    (∀ p v, i = .setdigit p v → positionOk p = false → decode (encode i) = .error .badPosition) ∧
    (∀ p v, i = .setdigit p v → positionOk p = true → valueOk v = false →
      decode (encode i) = .error .badValue)

/-- Each valid word has one meaning: a word that decodes to an operation is the encoding of that operation, and
the operation is well-formed. -/
def Obligations.EncodeAfterDecodeIsIdentity : Prop :=
  ∀ (w : Byte) (i : Instr), decode w = .ok i → encode i = w ∧ i.wellFormed = true

/-- Rule R60's word column: `(p << 4) | v`, `0x80`, `0x90 | e`, `0xA0 | e` (the bits are the spec's decision D3,
the level 1 for `enabled` its decision D17; assumptions 13, 16). -/
def Obligations.EncodedWordsMatchTheirColumn : Prop :=
  (∀ (p : BitVec 3) (v : BitVec 4), (encode (.setdigit p v)).toNat = 16 * p.toNat + v.toNat) ∧
  (encode .commit).toNat = 128 ∧ (∀ e : Bool, (encode (.sethv e)).toNat = 144 + e.toNat) ∧
  (∀ e : Bool, (encode (.setlamp e)).toNat = 160 + e.toNat)

/-! ## The command port -/

/-- A step runs the decoded instruction (rule R76, IDLE arm): the word at the port is consumed, one step passes at
the `rst` input, and the instruction's meaning is applied. Whether a word reaches `exec` is the row-level
decoder's (assumption 10). An odd `pend` is stuck (`StuckConfigurationsHaveNoStep`). -/
def Obligations.StepRunsDecodedInstruction : Prop :=
  ∀ (s : State) (w : Byte) (rest : List (Option Byte)) (i : Instr),
    rstNow s = false → s.fsm = .idle → s.pend.toNat % 2 = 0 → s.cmdIn = some w :: rest → readWord w = .ok i →
    step s = exec i { s with cmdIn := rest, rstIn := s.rstIn.tail }

/-- The IDLE arm of rule R76 with the total decoder of rule R56: the machine, which checks operands inside
SETDIGIT, does what `case decode(cmd)` with `Bad(c) -> reject(c)` says, on every word. An odd `pend` is stuck
(`StuckConfigurationsHaveNoStep`). -/
def Obligations.StepAgreesWithTotalDecode : Prop :=
  ∀ (s : State) (w : Byte) (rest : List (Option Byte)),
    rstNow s = false → s.fsm = .idle → s.pend.toNat % 2 = 0 → s.cmdIn = some w :: rest →
    step s = match decode w with
      | .ok i => exec i { s with cmdIn := rest, rstIn := s.rstIn.tail }
      | .error c => .next (reject c { s with cmdIn := rest, rstIn := s.rstIn.tail })

/-- Rule R76, IDLE with no command: no change and no event; only the queued inputs move on (assumptions 2, 3). An odd
`pend` is stuck (`StuckConfigurationsHaveNoStep`). -/
def Obligations.IdleWithoutCommandChangesNothing : Prop :=
  ∀ s : State, rstNow s = false → s.fsm = .idle → s.pend.toNat % 2 = 0 → cmdNow s = none →
    step s = .next { s with rstIn := s.rstIn.tail, cmdIn := s.cmdIn.tail }

/-- Rule R38: a command presented while `busy` = 1 is not accepted and waits at the port unchanged (the spec's
decision D2). The whole queue waits, so a hold queued there has not begun either (assumption 2). -/
def Obligations.CommandWaitsWhileBusy : Prop :=
  ∀ s t : State, rstNow s = false → busy s = true → step s = .next t →
    t.cmdIn = s.cmdIn ∧ ∀ w, cmdNow s = some w → cmdNow t = some w

/-- Rules R61, R134: a hold that the host has queued passes in IDLE, step by step, with no event and no change but
in the input queues. With `CommitEmitsFrameThenOnePulse`, which leaves all that is queued behind a COMMIT, a hold
behind a COMMIT is spent in IDLE from its first step. That a hold is `ms * k` quiet steps is the model's
(assumption 20). -/
def Obligations.HoldIsSpentInIdle : Prop :=
  ∀ (ms k n : Nat) (s : State) (rest : List (Option Byte)), s.fsm = .idle → s.pend.toNat % 2 = 0 →
    s.cmdIn = (HostOp.hold ms).present k ++ rest → noResetFor (ms * k) s → n ≤ ms * k →
    Host.Core.run Sys2Proof.core n s =
      .next { s with rstIn := s.rstIn.drop n, cmdIn := List.replicate (ms * k - n) none ++ rest }

/-- Rule R140: reset wins in any step, whatever the state and whatever command is presented; it emits nothing and
accepts no command, and it touches neither the parameters nor the chain nor the display (rule R141). The mapping
of "system start" onto an input is the spec's decisions D1, D16, D20; the values of rule R28 are its decision D16. -/
def Obligations.ResetWinsInEveryStep : Prop :=
  ∀ s : State, rstNow s = true →
    step s = .next { s with
      slot := Vector.replicate 6 0x3FF, latch := false, hv := false, lamp := false, fsm := .idle,
      acc := 0, pend := 0, idx := 0, err := false, ecause := 0, rstIn := s.rstIn.tail }

/-- Rule R27: after reset every slot holds the blank code and the three lines are low. -/
def Obligations.ResetBlanksSlotsAndLowersLines : Prop :=
  (∀ k : Fin 6, State.reset.slot[k] = 0x3FF) ∧ State.reset.latch = false ∧ State.reset.hv = false ∧
  State.reset.lamp = false

/-- Rule R28: the reset values that the document does not give (the spec's decision D16, assumption 7). -/
def Obligations.ResetIsIdleAndClear : Prop :=
  State.reset.fsm = .idle ∧ State.reset.acc = 0 ∧ State.reset.pend = 0 ∧ State.reset.idx = 0 ∧
  State.reset.err = false ∧ State.reset.ecause = 0 ∧ busy State.reset = false ∧ State.reset.trace = []

/-! ## The digit encoder -/

/-- Rule R47, for every `CATHODE_BIT`: the code of a digit 0..9 has exactly bit `CATHODE_BIT(v)` cleared, the
code of 10 is all ones. -/
def Obligations.DigitCodeClearsItsCathodeBit : Prop :=
  ∀ cfg : Config,
    (∀ (v : Fin 10) (i : Nat), i < 10 →
      (rom cfg ⟨v.val, by omega⟩).getLsbD i = decide (i ≠ (cfg.cathode[v]).val)) ∧
    rom cfg 10 = 0x3FF

/-- Rule R48, for every admissible `CATHODE_BIT`: a digit's code has nine 1 bits, blank has ten, codes of distinct
values differ, and the value is recovered from the code. -/
def Obligations.DigitCodesAreDistinctAndInvertible : Prop :=
  ∀ cfg : Config, cfg.Admissible →
    (∀ v : Digit, ((List.range 10).countP fun i => (rom cfg v).getLsbD i) = if v.val = 10 then 10 else 9) ∧
    (∀ v w : Digit, rom cfg v = rom cfg w → v = w) ∧
    (∀ v : Digit, unrom cfg (rom cfg v) = some v)

/-- Rule R70: the encoder is total on 0..15, the table entry up to 10 and none from 11 on. -/
def Obligations.EncoderIsBoundsChecked : Prop :=
  ∀ (cfg : Config) (val : BitVec 4),
    (∀ h : val.toNat ≤ 10, encodeDigit cfg val = some (rom cfg ⟨val.toNat, by omega⟩)) ∧
    (11 ≤ val.toNat → encodeDigit cfg val = none)

/-- Rule R50: position p selects fold index 6 - p; positions 0 and 7 select nothing. -/
def Obligations.FoldIndexIsSixMinusPosition : Prop :=
  ∀ p : BitVec 3, (∀ k : Fin 6, foldIndex p = some k ↔ k.val + p.toNat = 6) ∧
    (foldIndex p = none ↔ p = 0 ∨ p = 7)

/-! ## SETDIGIT -/

/-- Rule R65: SETDIGIT with valid operands, accepted in IDLE, completes: slot 6 - p takes the table entry of v, the
other five slots and every other field keep their values, and no event is emitted. -/
def Obligations.SetdigitWritesExactlyItsSlot : Prop :=
  ∀ (s : State) (p : BitVec 3) (v : BitVec 4) (hp : 1 ≤ p.toNat ∧ p.toNat ≤ 6) (hv : v.toNat ≤ 10),
    s.fsm = .idle →
    ∃ t, exec (.setdigit p v) s = .next t ∧ t = { s with slot := t.slot } ∧
      t.slot[6 - p.toNat]'(by omega) = rom s.cfg ⟨v.toNat, by omega⟩ ∧
      ∀ k : Fin 6, k.val ≠ 6 - p.toNat → t.slot[k] = s.slot[k]

/-- Rule R66: SETDIGIT with a bad position is rejected with cause 1 whatever the value, with a good position and a
value above 10 with cause 2; no slot is written. The reject policy is the spec's decisions D5, D6, D8
(assumption 15). -/
def Obligations.SetdigitRejectsBadOperands : Prop :=
  ∀ (s : State) (p : BitVec 3) (v : BitVec 4), s.fsm = .idle →
    (p = 0 ∨ p = 7 →
      exec (.setdigit p v) s = .next
        { s with err := true, ecause := if s.err then s.ecause else 1,
                 trace := s.trace ++ [.reject .badPosition] }) ∧
    (¬(p = 0 ∨ p = 7) → 10 < v.toNat →
      exec (.setdigit p v) s = .next
        { s with err := true, ecause := if s.err then s.ecause else 2,
                 trace := s.trace ++ [.reject .badValue] })

/-- Rule R37: SETDIGIT with valid operands is idempotent. -/
def Obligations.SetdigitTwiceEqualsOnce : Prop :=
  ∀ (s t : State) (p : BitVec 3) (v : BitVec 4), positionOk p = true → valueOk v = true →
    exec (.setdigit p v) s = .next t → exec (.setdigit p v) t = .next t

/-- Rule R68: a later SETDIGIT to the same position replaces the earlier one and nothing of it remains. -/
def Obligations.LaterSetdigitReplacesEarlier : Prop :=
  ∀ (s t : State) (p : BitVec 3) (v w : BitVec 4), positionOk p = true → valueOk v = true → valueOk w = true →
    exec (.setdigit p v) s = .next t → exec (.setdigit p w) t = exec (.setdigit p w) s

/-- Rule R68 with rule R40: SETDIGITs to different positions commute. -/
def Obligations.SetdigitsToDifferentPositionsCommute : Prop :=
  ∀ (s t u : State) (p q : BitVec 3) (v w : BitVec 4), p ≠ q →
    positionOk p = true → positionOk q = true → valueOk v = true → valueOk w = true →
    exec (.setdigit p v) s = .next t → exec (.setdigit q w) s = .next u →
    ∃ r, exec (.setdigit q w) t = .next r ∧ exec (.setdigit p v) u = .next r

/-- Rules R11, R32: without a reset, a slot that a step changes was written by a SETDIGIT accepted in IDLE, to that
slot's position, with the table entry of its value; every other slot keeps its value. -/
def Obligations.SlotsChangeOnlyBySetdigit : Prop :=
  ∀ (s t : State) (k : Fin 6), rstNow s = false → step s = .next t → t.slot[k] ≠ s.slot[k] →
    s.fsm = .idle ∧
    (∃ (w : Byte) (p : BitVec 3) (v : BitVec 4), cmdNow s = some w ∧ readWord w = .ok (.setdigit p v) ∧
      foldIndex p = some k ∧ encodeDigit s.cfg v = some t.slot[k]) ∧
    ∀ j : Fin 6, j ≠ k → t.slot[j] = s.slot[j]

/-! ## COMMIT and the serializer -/

/-- Rule R75, the step that accepts COMMIT: `fsm <- INIT` and nothing else. -/
def Obligations.CommitOnlyStartsTheSerializer : Prop :=
  ∀ s : State, s.fsm = .idle → exec .commit s = .next { s with fsm := .init }

/-- Rule R77, INIT. `tick` is one step passing at the inputs with no command accepted. An odd `pend` is stuck
(`StuckConfigurationsHaveNoStep`). -/
def Obligations.InitClearsAndCountsPadding : Prop :=
  ∀ s : State, rstNow s = false → s.fsm = .init → s.pend.toNat % 2 = 0 →
    step s = .next { tick s with acc := 0, pend := 4, idx := 0, latch := false, fsm := .check }

/-- Rule R78, CHECK: FILL when fewer than 8 bits are buffered, else OUTPUT; nothing else changes, no event. -/
def Obligations.CheckBranchesOnEightBits : Prop :=
  ∀ s : State, rstNow s = false → s.fsm = .check → s.pend.toNat % 2 = 0 →
    (s.pend.toNat < 8 → s.idx ≠ 6 → step s = .next { tick s with fsm := .fill }) ∧
    (8 ≤ s.pend.toNat → step s = .next { tick s with fsm := .output })

/-- Rule R79, FILL: the code of slot `idx` goes just below the buffered bits (its bit 0 to bit 6 - pend), the bits
above keep their values, the bits below stay zero, `pend` grows by 10, `idx` by 1, then CHECK; no event, no slot
changes. Stated with the accumulator invariant as premise, so it does not depend on the "merge" being OR. -/
def Obligations.FillPlacesCodeBelowBufferedBits : Prop :=
  ∀ (s : State) (hi : s.idx.toNat ≤ 5), rstNow s = false → s.fsm = .fill → s.pend.toNat % 2 = 0 →
    s.pend.toNat ≤ 6 → AccClear s →
    ∃ t, step s = .next t ∧
      t = { tick s with acc := t.acc, pend := t.pend, idx := t.idx, fsm := .check } ∧
      t.pend.toNat = s.pend.toNat + 10 ∧ t.idx.toNat = s.idx.toNat + 1 ∧
      (∀ j : Nat, j < 10 →
        t.acc.getLsbD (6 - s.pend.toNat + j) = (s.slot[s.idx.toNat]'(by omega)).getLsbD j) ∧
      (∀ i : Nat, 16 ≤ i + s.pend.toNat → t.acc.getLsbD i = s.acc.getLsbD i) ∧
      (∀ i : Nat, i + s.pend.toNat < 6 → t.acc.getLsbD i = false)

/-- Rule R81, OUTPUT, not the last: the top 8 bits go out as one byte, the accumulator shifts left by 8, `pend`
drops by 8, back to CHECK. The byte also enters the environment's chain (rule R25); how the chain fills is general
knowledge (the spec's G1, assumption 5). -/
def Obligations.OutputSendsTopByte : Prop :=
  ∀ s : State, rstNow s = false → s.fsm = .output → s.pend.toNat % 2 = 0 → 8 ≤ s.pend.toNat → s.idx ≠ 6 →
    ∃ t, step s = .next t ∧
      t = { tick s with acc := s.acc <<< 8, pend := t.pend, fsm := .check,
                        trace := s.trace ++ [.tx (s.acc.extractLsb' 8 8)],
                        sr := chainTakeByte s.cfg s.sr (s.acc.extractLsb' 8 8) } ∧
      t.pend.toNat = s.pend.toNat - 8

/-- Rule R82, OUTPUT, the last: with all six slots consumed and 16 bits buffered, the same step sends both
remaining bytes, leaves `acc` = 0 and `pend` = 0 and goes to DONE (the update for the final byte is the spec's
decision D13). Both bytes enter the environment's chain (rule R25); how the chain fills is general knowledge (the
spec's G1, assumption 5). -/
def Obligations.LastOutputSendsBothBytes : Prop :=
  ∀ s : State, rstNow s = false → s.fsm = .output → s.pend = 16 → s.idx = 6 →
    step s = .next { tick s with
      acc := 0, pend := 0, fsm := .done,
      trace := s.trace ++ [.tx (s.acc.extractLsb' 8 8), .tx (s.acc.extractLsb' 0 8)],
      sr := chainTakeByte s.cfg (chainTakeByte s.cfg s.sr (s.acc.extractLsb' 8 8)) (s.acc.extractLsb' 0 8) }

/-- Rule R100, DONE: one latch pulse in one step, then IDLE; the display takes `sr[59:0]` at the rise (rule R26).
The return to IDLE is the spec's decision D9, the capturing edge its decision D12 (assumption 12). -/
def Obligations.DonePulsesLatchOnce : Prop :=
  ∀ s : State, rstNow s = false → s.fsm = .done → s.pend.toNat % 2 = 0 →
    step s = .next { tick s with
      latch := false, fsm := .idle, trace := s.trace ++ [.latchRise, .latchFall],
      vis := s.sr.extractLsb' 0 60 }

/-- The configurations that have no step: any odd `pend`, and the others of rule R92 (the spec's decision D21, U6;
assumptions 8, 9). -/
def Obligations.StuckConfigurationsHaveNoStep : Prop :=
  ∀ s : State, rstNow s = false →
    (s.pend.toNat % 2 = 1 → step s = .fault .stuckOddPend) ∧
    (s.fsm = .check → s.pend.toNat % 2 = 0 → s.pend.toNat < 8 → s.idx = 6 → step s = .fault .stuckCheck) ∧
    (s.fsm = .fill → s.pend.toNat % 2 = 0 → 6 < s.pend.toNat ∨ 5 < s.idx.toNat → step s = .fault .stuckFill) ∧
    (s.fsm = .output → s.pend.toNat % 2 = 0 → s.pend.toNat < 8 → step s = .fault .stuckOutput) ∧
    (s.fsm = .output → s.pend.toNat % 2 = 0 → 8 ≤ s.pend.toNat → s.idx = 6 → s.pend ≠ 16 →
      step s = .fault .stuckLastByte)

/-- The frame theorem (rules R84, R86, R87, R94, R101): from the step that accepts COMMIT, 29 steps emit exactly
`Tx` of the 8 bytes of the six codes that were in the slots at acceptance, then one latch pulse; the machine is
back in IDLE with `acc` = 0, `pend` = 0, `idx` = 6, and slots, lines, error record and parameters are unchanged. All
that the host has queued behind the COMMIT is still waiting. It holds for any slot contents and any parameters. That
the run ends rests on the premise that every transmit returns, which the model has built in (the spec's decision
D11, U5; assumption 11). -/
def Obligations.CommitEmitsFrameThenOnePulse : Prop :=
  ∀ (s : State) (rest : List (Option Byte)), s.fsm = .idle → s.pend.toNat % 2 = 0 →
    s.cmdIn = some 0x80 :: rest → noResetFor 29 s →
    ∃ t, Host.Core.run Sys2Proof.core 29 s = .next t ∧
      t.trace = s.trace ++ commitEvents (pack s.slot) ∧
      t.fsm = .idle ∧ t.acc = 0 ∧ t.pend = 0 ∧ t.idx = 6 ∧ t.latch = false ∧
      t.slot = s.slot ∧ t.hv = s.hv ∧ t.lamp = s.lamp ∧ t.err = s.err ∧ t.ecause = s.ecause ∧ t.cfg = s.cfg ∧
      t.rstIn = s.rstIn.drop 29 ∧ t.cmdIn = rest

/-- Rules R84, R93: a commit has exactly 28 steps after its acceptance; `busy` is 1 before each of them and 0 after
the last, whatever the slots hold. It rests on the premise that every transmit returns, which the model has built in
(the spec's decision D11, U5; assumption 11). -/
def Obligations.CommitTakesTwentyEightSteps : Prop :=
  ∀ (s : State) (rest : List (Option Byte)) (n : Nat), s.fsm = .idle → s.pend.toNat % 2 = 0 →
    s.cmdIn = some 0x80 :: rest → noResetFor 29 s → 1 ≤ n → n ≤ 29 →
    ∃ t, Host.Core.run Sys2Proof.core n s = .next t ∧ busy t = decide (n < 29)

/-- Rule R84: no transition depends on data. Of two serializer states that agree on `fsm`, `pend`, `idx` and the
inputs, if one has a next state then so has the other, and the two next states agree on them again, whatever slots,
accumulator, lines, error record, chain, display and parameters hold. -/
def Obligations.SerializerControlIgnoresData : Prop :=
  ∀ s u t : State, s.fsm ≠ .idle → u.fsm = s.fsm → u.pend = s.pend → u.idx = s.idx → u.rstIn = s.rstIn →
    u.cmdIn = s.cmdIn → step s = .next t →
    ∃ r, step u = .next r ∧ r.fsm = t.fsm ∧ r.pend = t.pend ∧ r.idx = t.idx ∧ r.rstIn = t.rstIn ∧ r.cmdIn = t.cmdIn

/-! ## The frame -/

/-- Rules R33, R52, R88, R89: the 8 bytes of `pack`, read as one 64-bit value with byte 0 most significant, are
the stream S: `byte_i = S[63-8i : 56-8i]`, code k at `S[59-10k : 50-10k]`, four zero bits on top. -/
def Obligations.PackedBytesAreTheStream : Prop :=
  ∀ cs : Vector Code 6, streamOfBytes (pack cs) = stream cs ∧
    (∀ i : Fin 8, (pack cs)[i] = (stream cs).extractLsb' (56 - 8 * i.val) 8) ∧
    (∀ k : Fin 6, (stream cs).extractLsb' (50 - 10 * k.val) 10 = cs[k]) ∧
    (stream cs).extractLsb' 60 4 = 0

/-- Rule R54: decoding a packed frame gives the six codes back, for every sextet of 10-bit codes; the padding is
not part of the decoded result. -/
def Obligations.FrameRoundTrip : Prop :=
  (∀ cs : Vector Code 6, unpack (pack cs) = cs) ∧
  (∀ (b : Vector Byte 8) (n : BitVec 4), unpack (b.set 0 (join n (b[0].extractLsb' 0 4) rfl)) = unpack b)

/-- Rule R69: changing the code of position p changes the frame only inside the stream bits `S[10p-1 : 10p-10]`. -/
def Obligations.OnePositionChangesOnlyItsFrameBits : Prop :=
  ∀ (cs : Vector Code 6) (p : Nat) (hp : 1 ≤ p ∧ p ≤ 6) (code : Code) (j : Nat), j < 10 * p - 10 ∨ 10 * p ≤ j →
    (streamOfBytes (pack (cs.set (6 - p) code))).getLsbD j = (streamOfBytes (pack cs)).getLsbD j

/-- Rule R53: with table entries in the slots, tube NXp showing digit v clears exactly stream bit
`10(p-1) + CATHODE_BIT(v)` of its ten; a blank tube clears none. -/
def Obligations.LitTubeClearsOneStreamBit : Prop :=
  ∀ (cfg : Config) (d : Vector Digit 6) (p : Nat) (hp : 1 ≤ p ∧ p ≤ 6) (i : Nat), i < 10 →
    (streamOfBytes (pack (d.map (rom cfg)))).getLsbD (10 * (p - 1) + i) =
      if h : (d[6 - p]).val < 10 then decide (i ≠ (cfg.cathode[(d[6 - p]).val]).val) else true

/-! ## SETHV and SETLAMP -/

/-- Rule R110: SETHV e completes with `hv` = e and one `Hv(e)` event, and changes nothing else. -/
def Obligations.SethvDrivesOnlyItsLine : Prop :=
  ∀ (s : State) (e : Bool), s.fsm = .idle →
    exec (.sethv e) s = .next { s with hv := e, trace := s.trace ++ [.hv e] }

/-- Rule R111: SETLAMP e completes with `lamp` = e and one `Lamp(e)` event, and changes nothing else. -/
def Obligations.SetlampDrivesOnlyItsLine : Prop :=
  ∀ (s : State) (e : Bool), s.fsm = .idle →
    exec (.setlamp e) s = .next { s with lamp := e, trace := s.trace ++ [.lamp e] }

/-- Rules R18, R19, R112: without a reset, a step that changes `hv` accepted a SETHV of the new level, and a step
that changes `lamp` accepted a SETLAMP of the new level; neither happens during a commit. -/
def Obligations.LinesChangeOnlyByTheirCommand : Prop :=
  ∀ s t : State, rstNow s = false → step s = .next t →
    (t.hv ≠ s.hv → s.fsm = .idle ∧ ∃ w, cmdNow s = some w ∧ readWord w = .ok (.sethv t.hv)) ∧
    (t.lamp ≠ s.lamp → s.fsm = .idle ∧ ∃ w, cmdNow s = some w ∧ readWord w = .ok (.setlamp t.lamp))

/-! ## Rejects -/

/-- Rules R121, R124: a word that no row selects is consumed and rejected with cause 3: `err` set, `ecause` taken if
`err` was 0, one `Reject` event, nothing else (the spec's decisions D7, D8; assumption 15). -/
def Obligations.ReservedWordIsRejected : Prop :=
  ∀ (s : State) (w : Byte) (rest : List (Option Byte)),
    rstNow s = false → s.fsm = .idle → s.pend.toNat % 2 = 0 → s.cmdIn = some w :: rest →
    (∀ r : Row, r.selects w = false) →
    step s = .next { s with
      cmdIn := rest, rstIn := s.rstIn.tail, err := true, ecause := if s.err then s.ecause else 3,
      trace := s.trace ++ [.reject .reservedCommand] }

/-- Rules R20, R126: the error record is sticky. Without a reset, a step leaves a set `err` and its cause as they
are; and a step that sets `err` is an IDLE step that rejected one word and recorded that reject's cause. -/
def Obligations.ErrorRecordKeepsFirstCause : Prop :=
  ∀ s t : State, rstNow s = false → step s = .next t →
    (s.err = true → t.err = true ∧ t.ecause = s.ecause) ∧
    (s.err = false → t.err = true →
      s.fsm = .idle ∧ ∃ c : Cause, t.trace = s.trace ++ [.reject c] ∧ t.ecause = c.code ∧ c.code ≠ 0) ∧
    (t.err = false → t.ecause = s.ecause)

/-- Rule R126: `err` blocks nothing. A state that differs only in the error record has a next state too, and that
differs only in the error record. -/
def Obligations.ErrorRecordBlocksNothing : Prop :=
  ∀ (s t : State) (e : Bool) (c : BitVec 2), step s = .next t →
    ∃ r, step { s with err := e, ecause := c } = .next r ∧ r = { t with err := r.err, ecause := r.ecause }

/-! ## Latch, display, events -/

/-- Rules R8, R102, R120: the trace only grows, and every event a step emits belongs to the FSM state it ran: `Tx`
to OUTPUT, latch events to DONE, `Hv`, `Lamp` and `Reject` to IDLE. A reset emits nothing. -/
def Obligations.EventsBelongToTheirFsmState : Prop :=
  ∀ s t : State, step s = .next t →
    ∃ es : List Event, t.trace = s.trace ++ es ∧ (∀ e ∈ es, emittedIn e = s.fsm) ∧ (rstNow s = true → es = [])

/-- Rules R17, R103, R106: no operation drives the latch line, and it is low at every step boundary once it is low
at one. -/
def Obligations.LatchLineStaysLow : Prop :=
  (∀ (i : Instr) (s t : State), exec i s = .next t → t.latch = s.latch) ∧
  (∀ s t : State, s.latch = false → step s = .next t → t.latch = false)

/-- Rules R26, R67, R104, R105: the display changes only in a DONE step, and then to `sr[59:0]`; the chain moves
only in an OUTPUT step. Reset changes neither (rule R141). The capturing edge is the spec's decision D12
(assumption 12). -/
def Obligations.DisplayChangesOnlyInDone : Prop :=
  ∀ s t : State, step s = .next t →
    (t.vis ≠ s.vis → s.fsm = .done ∧ rstNow s = false ∧ t.vis = s.sr.extractLsb' 0 60) ∧
    (t.sr ≠ s.sr → s.fsm = .output ∧ rstNow s = false)

/-- Rule R104, in the environment model: after a commit, tube NXp shows the code of slot 6 - p, for every CHAIN_LEN
in 60..64 and whatever the chain and the display held before, with TX_MSB_FIRST. How the chain fills is general
knowledge (the spec's G1, assumption 5), the capturing edge the spec's decision D12 (assumption 12); that the run
ends rests on the premise that every transmit returns (the spec's decision D11, U5; assumption 11). The other wire
order is `ReversedWireOrderMirrorsEachByte`. -/
def Obligations.CommitShowsEverySlot : Prop :=
  ∀ (s : State) (rest : List (Option Byte)), s.fsm = .idle → s.pend.toNat % 2 = 0 →
    s.cmdIn = some 0x80 :: rest → noResetFor 29 s → s.cfg.Admissible → s.cfg.txMsbFirst = true →
    ∃ t, Host.Core.run Sys2Proof.core 29 s = .next t ∧
      ∀ (p : Nat) (hp : 1 ≤ p ∧ p ≤ 6), visCode t.vis p = s.slot[6 - p]

/-- Rules R25, R26, R34, with TX_MSB_FIRST false: the display then holds the stream with the bits of every byte
mirrored. That false means bit 0 first is the model's reading (DEDUCED, assumption 18); how the chain fills is general
knowledge (the spec's G1, assumption 5), the capturing edge the spec's decision D12 (assumption 12); that the run
ends rests on the premise that every transmit returns (the spec's decision D11, U5; assumption 11). -/
def Obligations.ReversedWireOrderMirrorsEachByte : Prop :=
  ∀ (s : State) (rest : List (Option Byte)), s.fsm = .idle → s.pend.toNat % 2 = 0 →
    s.cmdIn = some 0x80 :: rest → noResetFor 29 s → s.cfg.Admissible → s.cfg.txMsbFirst = false →
    ∃ t, Host.Core.run Sys2Proof.core 29 s = .next t ∧
      ∀ b : Nat, b < 60 → t.vis.getLsbD b = (stream s.slot).getLsbD (8 * (b / 8) + (7 - b % 8))

/-- Rules R102, R105, R142: from IDLE, as long as no COMMIT is queued at the port, any number of steps, with any
resets among them, emits no `Tx` and no latch event and leaves the chain and the display as they were. -/
def Obligations.WithoutCommitDisplayHolds : Prop :=
  ∀ (n : Nat) (s t : State), s.fsm = .idle → (∀ w, some w ∈ s.cmdIn → readWord w ≠ .ok .commit) →
    Host.Core.run Sys2Proof.core n s = .next t →
    t.fsm = .idle ∧ t.sr = s.sr ∧ t.vis = s.vis ∧
    ∃ es : List Event, t.trace = s.trace ++ es ∧ ∀ e ∈ es, emittedIn e = .idle

/-- Rules R6, R107: LATCH_HIGH_CYCLES makes no difference: a state that differs only in it has the same next state
but for it. -/
def Obligations.LatchHighCyclesIsUnobservable : Prop :=
  ∀ (s t : State) (n : Nat), step s = .next t →
    step { s with cfg := { s.cfg with latchHighCycles := n } } =
      .next { t with cfg := { t.cfg with latchHighCycles := n } }

/-! ## Invariants -/

/-- The invariant holds at reset (rules R12, R28, R92). -/
def Obligations.InvariantHoldsAtReset : Prop := StateInv State.reset

/-- Rules R12, R17, R20, R90, R92: every step keeps the invariant, from every state that has it. -/
def Obligations.EveryStepKeepsInvariant : Prop :=
  ∀ s t : State, StateInv s → step s = .next t → StateInv t

/-- Rules R43, R92, R120: a state that has the invariant is never stuck: every step answers a next state. In OUTPUT it
rests on the premise that every transmit returns (the spec's decision D11, U5; assumption 11). -/
def Obligations.InvariantStatesAreNeverStuck : Prop :=
  ∀ s : State, StateInv s → ∃ t, step s = .next t
end

