-- ==== Sys2Proof/Laws/Frame.lean ====
section
/-! SUPPORT. The bits of a joined byte, of the stream and of the chain. -/

namespace Sys2Proof.Machine

@[simp] theorem getLsbD_join {m n : Nat} (a : BitVec m) (b : BitVec n) (h : m + n = 8) (i : Nat) :
    (join a b h).getLsbD i = if i < n then b.getLsbD i else a.getLsbD (i - n) := by
  simp [join, BitVec.getLsbD_append]

@[simp] theorem getElem_join {m n : Nat} (a : BitVec m) (b : BitVec n) (h : m + n = 8) (i : Nat) (hi : i < 8) :
    (join a b h)[i] = if i < n then b.getLsbD i else a.getLsbD (i - n) := by
  rw [← BitVec.getLsbD_eq_getElem, getLsbD_join]

/-- Every stage below 60 exists (rule R24). -/
theorem chainMask_low {cfg : Config} (h : cfg.Admissible) {i : Nat} (hi : i < 60) :
    (chainMask cfg).getLsbD i = true := by
  obtain ⟨-, -, h60, h64⟩ := h
  unfold chainMask
  rw [BitVec.getLsbD_ushiftRight, BitVec.getLsbD_allOnes]
  simp only [decide_eq_true_eq]
  omega

/-- One bit shifted in, on the stages below 60 (rule R25). -/
theorem chainShiftIn_low {cfg : Config} (h : cfg.Admissible) (sr : BitVec 64) (b : Bool) {i : Nat} (hi : i < 60) :
    (chainShiftIn cfg sr b).getLsbD i = if i = 0 then b else sr.getLsbD (i - 1) := by
  unfold chainShiftIn
  rw [BitVec.getLsbD_and, chainMask_low h hi]
  rcases i with _ | i
  · simp
  · simp
    omega

/-- One byte taken, on the stages below 60, in either wire order (rules R25, R34). -/
theorem chainTakeByte_low {cfg : Config} (h : cfg.Admissible) (sr : BitVec 64) (b : Byte) {i : Nat} (hi : i < 60) :
    (chainTakeByte cfg sr b).getLsbD i =
      if i < 8 then b.getLsbD (if cfg.txMsbFirst then i else 7 - i) else sr.getLsbD (i - 8) := by
  unfold chainTakeByte wireBits
  cases cfg.txMsbFirst <;>
  · simp only [if_true, if_false, Bool.false_eq_true, List.foldl]
    repeat' rw [chainShiftIn_low h _ _ (by omega)]
    by_cases h8 : i < 8
    · interval_cases i <;> simp
    · repeat' rw [if_neg (by omega)]
      congr 1

/-- Shifting in leaves nothing past the last stage (rule R24). -/
theorem chainShiftIn_masked (cfg : Config) (sr : BitVec 64) (b : Bool) :
    chainShiftIn cfg sr b &&& chainMask cfg = chainShiftIn cfg sr b := by
  unfold chainShiftIn
  rw [BitVec.and_assoc, BitVec.and_self]

/-- Taking a byte leaves nothing past the last stage (rule R24). -/
theorem chainTakeByte_masked (cfg : Config) (sr : BitVec 64) (b : Byte) :
    chainTakeByte cfg sr b &&& chainMask cfg = chainTakeByte cfg sr b := by
  unfold chainTakeByte wireBits
  split <;> exact chainShiftIn_masked cfg _ _

end Sys2Proof.Machine
end

