-- ==== Sys2Proof/Laws/Invariant.lean ====
section
/-! SUPPORT. How the reachable (`pend`, `idx`) values of one FSM state lead to those of the next, on numbers
(rules R84, R92), and how a state inherits the invariant from one that agrees with it. -/

namespace Sys2Proof.Machine

/-- In every reachable configuration `pend` is even (rule R91). -/
theorem counts_even : ∀ f : Fsm, ∀ x ∈ reachableCounts f, x.1 % 2 = 0 := by
  intro f
  cases f <;> decide

/-- CHECK with fewer than 8 bits buffered never has all slots consumed (rules R78, R92). -/
theorem counts_check_slotLeft : ∀ x ∈ reachableCounts .check, x.1 < 8 → x.2 ≠ 6 := by decide

theorem counts_check_fill : ∀ x ∈ reachableCounts .check, x.1 < 8 → x ∈ reachableCounts .fill := by decide

theorem counts_check_output : ∀ x ∈ reachableCounts .check, 8 ≤ x.1 → x ∈ reachableCounts .output := by decide

/-- FILL's `require` always holds (rules R79, R91). -/
theorem counts_fill_require : ∀ x ∈ reachableCounts .fill, x.1 ≤ 6 ∧ x.2 < 6 := by decide

theorem counts_fill_check :
    ∀ x ∈ reachableCounts .fill, (x.1 + 10, x.2 + 1) ∈ reachableCounts .check := by decide

/-- OUTPUT's `require` always holds (rules R81, R91). -/
theorem counts_output_require : ∀ x ∈ reachableCounts .output, 8 ≤ x.1 := by decide

theorem counts_output_check :
    ∀ x ∈ reachableCounts .output, x.2 ≠ 6 → (x.1 - 8, x.2) ∈ reachableCounts .check := by decide

/-- The last OUTPUT finds exactly the two final bytes buffered (rule R82). -/
theorem counts_output_last : ∀ x ∈ reachableCounts .output, x.2 = 6 → x.1 = 16 := by decide

theorem counts_done_idle : ∀ x ∈ reachableCounts .done, x ∈ reachableCounts .idle := by decide

theorem counts_idle_init : ∀ x ∈ reachableCounts .idle, x ∈ reachableCounts .init := by decide

/-- A state that agrees with a good one on what the invariant reads is good. -/
theorem StateInv.congr {s t : State} (h : StateInv s) (hcfg : t.cfg = s.cfg) (hslot : t.slot = s.slot)
    (hlatch : t.latch = s.latch) (hfsm : t.fsm = s.fsm) (hpend : t.pend = s.pend) (hidx : t.idx = s.idx)
    (hacc : t.acc = s.acc) (herr : t.err = s.err) (hecause : t.ecause = s.ecause) (hsr : t.sr = s.sr) :
    StateInv t where
  params := hcfg ▸ h.params
  slots := by rw [hcfg, hslot]; exact h.slots
  latch := hlatch.trans h.latch
  counts := by rw [hfsm, hpend, hidx]; exact h.counts
  acc := by unfold AccClear; rw [hacc, hpend]; exact h.acc
  status := by rw [herr, hecause]; exact h.status
  chain := by rw [hsr, hcfg]; exact h.chain

end Sys2Proof.Machine
end

