-- ==== Sys2Proof/Laws/State.lean ====
section
/-! SUPPORT. What each named operation does to each field of the state, one lemma per field, all by rfl. Use these by simp on
a composition of operations: rfl there compares whole states and is slow. -/

namespace Sys2Proof.Machine

/-- The next state of INIT (rule R77). -/
def afterInit (s : State) : State := { s with acc := 0, pend := 4, idx := 0, latch := false, fsm := .check }

/-- The next state of FILL (rule R79). -/
def afterFill (s : State) (h : s.idx.toNat < 6) : State :=
  { s with acc := s.acc ||| ((s.slot[s.idx.toNat]'h).setWidth 16 <<< (6 - s.pend.toNat))
           pend := s.pend + 10
           idx := s.idx + 1
           fsm := .check }

variable (s : State)

/-! ## emit -/

@[simp] theorem emit_slot (e : Event) : (emit e s).slot = s.slot := rfl
@[simp] theorem emit_acc (e : Event) : (emit e s).acc = s.acc := rfl
@[simp] theorem emit_pend (e : Event) : (emit e s).pend = s.pend := rfl
@[simp] theorem emit_idx (e : Event) : (emit e s).idx = s.idx := rfl
@[simp] theorem emit_fsm (e : Event) : (emit e s).fsm = s.fsm := rfl
@[simp] theorem emit_latch (e : Event) : (emit e s).latch = s.latch := rfl
@[simp] theorem emit_hv (e : Event) : (emit e s).hv = s.hv := rfl
@[simp] theorem emit_lamp (e : Event) : (emit e s).lamp = s.lamp := rfl
@[simp] theorem emit_err (e : Event) : (emit e s).err = s.err := rfl
@[simp] theorem emit_ecause (e : Event) : (emit e s).ecause = s.ecause := rfl
@[simp] theorem emit_sr (e : Event) : (emit e s).sr = chainAfter s.cfg s.sr e := rfl
@[simp] theorem emit_vis (e : Event) : (emit e s).vis = visAfter s.sr s.vis e := rfl
@[simp] theorem emit_cfg (e : Event) : (emit e s).cfg = s.cfg := rfl
@[simp] theorem emit_rstIn (e : Event) : (emit e s).rstIn = s.rstIn := rfl
@[simp] theorem emit_cmdIn (e : Event) : (emit e s).cmdIn = s.cmdIn := rfl
@[simp] theorem emit_trace (e : Event) : (emit e s).trace = s.trace ++ [e] := rfl

/-! ## recordCause -/

@[simp] theorem recordCause_slot (c : Cause) : (recordCause c s).slot = s.slot := rfl
@[simp] theorem recordCause_acc (c : Cause) : (recordCause c s).acc = s.acc := rfl
@[simp] theorem recordCause_pend (c : Cause) : (recordCause c s).pend = s.pend := rfl
@[simp] theorem recordCause_idx (c : Cause) : (recordCause c s).idx = s.idx := rfl
@[simp] theorem recordCause_fsm (c : Cause) : (recordCause c s).fsm = s.fsm := rfl
@[simp] theorem recordCause_latch (c : Cause) : (recordCause c s).latch = s.latch := rfl
@[simp] theorem recordCause_hv (c : Cause) : (recordCause c s).hv = s.hv := rfl
@[simp] theorem recordCause_lamp (c : Cause) : (recordCause c s).lamp = s.lamp := rfl
@[simp] theorem recordCause_err (c : Cause) : (recordCause c s).err = true := rfl
@[simp] theorem recordCause_ecause (c : Cause) : (recordCause c s).ecause = if s.err then s.ecause else c.code := rfl
@[simp] theorem recordCause_sr (c : Cause) : (recordCause c s).sr = s.sr := rfl
@[simp] theorem recordCause_vis (c : Cause) : (recordCause c s).vis = s.vis := rfl
@[simp] theorem recordCause_cfg (c : Cause) : (recordCause c s).cfg = s.cfg := rfl
@[simp] theorem recordCause_rstIn (c : Cause) : (recordCause c s).rstIn = s.rstIn := rfl
@[simp] theorem recordCause_cmdIn (c : Cause) : (recordCause c s).cmdIn = s.cmdIn := rfl
@[simp] theorem recordCause_trace (c : Cause) : (recordCause c s).trace = s.trace := rfl

/-! ## writeSlot -/

@[simp] theorem writeSlot_slot (k : Fin 6) (c : Code) : (writeSlot k c s).slot = s.slot.set k.val c := rfl
@[simp] theorem writeSlot_acc (k : Fin 6) (c : Code) : (writeSlot k c s).acc = s.acc := rfl
@[simp] theorem writeSlot_pend (k : Fin 6) (c : Code) : (writeSlot k c s).pend = s.pend := rfl
@[simp] theorem writeSlot_idx (k : Fin 6) (c : Code) : (writeSlot k c s).idx = s.idx := rfl
@[simp] theorem writeSlot_fsm (k : Fin 6) (c : Code) : (writeSlot k c s).fsm = s.fsm := rfl
@[simp] theorem writeSlot_latch (k : Fin 6) (c : Code) : (writeSlot k c s).latch = s.latch := rfl
@[simp] theorem writeSlot_hv (k : Fin 6) (c : Code) : (writeSlot k c s).hv = s.hv := rfl
@[simp] theorem writeSlot_lamp (k : Fin 6) (c : Code) : (writeSlot k c s).lamp = s.lamp := rfl
@[simp] theorem writeSlot_err (k : Fin 6) (c : Code) : (writeSlot k c s).err = s.err := rfl
@[simp] theorem writeSlot_ecause (k : Fin 6) (c : Code) : (writeSlot k c s).ecause = s.ecause := rfl
@[simp] theorem writeSlot_sr (k : Fin 6) (c : Code) : (writeSlot k c s).sr = s.sr := rfl
@[simp] theorem writeSlot_vis (k : Fin 6) (c : Code) : (writeSlot k c s).vis = s.vis := rfl
@[simp] theorem writeSlot_cfg (k : Fin 6) (c : Code) : (writeSlot k c s).cfg = s.cfg := rfl
@[simp] theorem writeSlot_rstIn (k : Fin 6) (c : Code) : (writeSlot k c s).rstIn = s.rstIn := rfl
@[simp] theorem writeSlot_cmdIn (k : Fin 6) (c : Code) : (writeSlot k c s).cmdIn = s.cmdIn := rfl
@[simp] theorem writeSlot_trace (k : Fin 6) (c : Code) : (writeSlot k c s).trace = s.trace := rfl

/-! ## goto -/

@[simp] theorem goto_slot (f : Fsm) : (goto f s).slot = s.slot := rfl
@[simp] theorem goto_acc (f : Fsm) : (goto f s).acc = s.acc := rfl
@[simp] theorem goto_pend (f : Fsm) : (goto f s).pend = s.pend := rfl
@[simp] theorem goto_idx (f : Fsm) : (goto f s).idx = s.idx := rfl
@[simp] theorem goto_fsm (f : Fsm) : (goto f s).fsm = f := rfl
@[simp] theorem goto_latch (f : Fsm) : (goto f s).latch = s.latch := rfl
@[simp] theorem goto_hv (f : Fsm) : (goto f s).hv = s.hv := rfl
@[simp] theorem goto_lamp (f : Fsm) : (goto f s).lamp = s.lamp := rfl
@[simp] theorem goto_err (f : Fsm) : (goto f s).err = s.err := rfl
@[simp] theorem goto_ecause (f : Fsm) : (goto f s).ecause = s.ecause := rfl
@[simp] theorem goto_sr (f : Fsm) : (goto f s).sr = s.sr := rfl
@[simp] theorem goto_vis (f : Fsm) : (goto f s).vis = s.vis := rfl
@[simp] theorem goto_cfg (f : Fsm) : (goto f s).cfg = s.cfg := rfl
@[simp] theorem goto_rstIn (f : Fsm) : (goto f s).rstIn = s.rstIn := rfl
@[simp] theorem goto_cmdIn (f : Fsm) : (goto f s).cmdIn = s.cmdIn := rfl
@[simp] theorem goto_trace (f : Fsm) : (goto f s).trace = s.trace := rfl

/-! ## driveHv -/

@[simp] theorem driveHv_slot (e : Bool) : (driveHv e s).slot = s.slot := rfl
@[simp] theorem driveHv_acc (e : Bool) : (driveHv e s).acc = s.acc := rfl
@[simp] theorem driveHv_pend (e : Bool) : (driveHv e s).pend = s.pend := rfl
@[simp] theorem driveHv_idx (e : Bool) : (driveHv e s).idx = s.idx := rfl
@[simp] theorem driveHv_fsm (e : Bool) : (driveHv e s).fsm = s.fsm := rfl
@[simp] theorem driveHv_latch (e : Bool) : (driveHv e s).latch = s.latch := rfl
@[simp] theorem driveHv_hv (e : Bool) : (driveHv e s).hv = e := rfl
@[simp] theorem driveHv_lamp (e : Bool) : (driveHv e s).lamp = s.lamp := rfl
@[simp] theorem driveHv_err (e : Bool) : (driveHv e s).err = s.err := rfl
@[simp] theorem driveHv_ecause (e : Bool) : (driveHv e s).ecause = s.ecause := rfl
@[simp] theorem driveHv_sr (e : Bool) : (driveHv e s).sr = s.sr := rfl
@[simp] theorem driveHv_vis (e : Bool) : (driveHv e s).vis = s.vis := rfl
@[simp] theorem driveHv_cfg (e : Bool) : (driveHv e s).cfg = s.cfg := rfl
@[simp] theorem driveHv_rstIn (e : Bool) : (driveHv e s).rstIn = s.rstIn := rfl
@[simp] theorem driveHv_cmdIn (e : Bool) : (driveHv e s).cmdIn = s.cmdIn := rfl
@[simp] theorem driveHv_trace (e : Bool) : (driveHv e s).trace = s.trace ++ [.hv e] := rfl

/-! ## driveLamp -/

@[simp] theorem driveLamp_slot (e : Bool) : (driveLamp e s).slot = s.slot := rfl
@[simp] theorem driveLamp_acc (e : Bool) : (driveLamp e s).acc = s.acc := rfl
@[simp] theorem driveLamp_pend (e : Bool) : (driveLamp e s).pend = s.pend := rfl
@[simp] theorem driveLamp_idx (e : Bool) : (driveLamp e s).idx = s.idx := rfl
@[simp] theorem driveLamp_fsm (e : Bool) : (driveLamp e s).fsm = s.fsm := rfl
@[simp] theorem driveLamp_latch (e : Bool) : (driveLamp e s).latch = s.latch := rfl
@[simp] theorem driveLamp_hv (e : Bool) : (driveLamp e s).hv = s.hv := rfl
@[simp] theorem driveLamp_lamp (e : Bool) : (driveLamp e s).lamp = e := rfl
@[simp] theorem driveLamp_err (e : Bool) : (driveLamp e s).err = s.err := rfl
@[simp] theorem driveLamp_ecause (e : Bool) : (driveLamp e s).ecause = s.ecause := rfl
@[simp] theorem driveLamp_sr (e : Bool) : (driveLamp e s).sr = s.sr := rfl
@[simp] theorem driveLamp_vis (e : Bool) : (driveLamp e s).vis = s.vis := rfl
@[simp] theorem driveLamp_cfg (e : Bool) : (driveLamp e s).cfg = s.cfg := rfl
@[simp] theorem driveLamp_rstIn (e : Bool) : (driveLamp e s).rstIn = s.rstIn := rfl
@[simp] theorem driveLamp_cmdIn (e : Bool) : (driveLamp e s).cmdIn = s.cmdIn := rfl
@[simp] theorem driveLamp_trace (e : Bool) : (driveLamp e s).trace = s.trace ++ [.lamp e] := rfl

/-! ## reject -/

@[simp] theorem reject_slot (c : Cause) : (reject c s).slot = s.slot := rfl
@[simp] theorem reject_acc (c : Cause) : (reject c s).acc = s.acc := rfl
@[simp] theorem reject_pend (c : Cause) : (reject c s).pend = s.pend := rfl
@[simp] theorem reject_idx (c : Cause) : (reject c s).idx = s.idx := rfl
@[simp] theorem reject_fsm (c : Cause) : (reject c s).fsm = s.fsm := rfl
@[simp] theorem reject_latch (c : Cause) : (reject c s).latch = s.latch := rfl
@[simp] theorem reject_hv (c : Cause) : (reject c s).hv = s.hv := rfl
@[simp] theorem reject_lamp (c : Cause) : (reject c s).lamp = s.lamp := rfl
@[simp] theorem reject_err (c : Cause) : (reject c s).err = true := rfl
@[simp] theorem reject_ecause (c : Cause) : (reject c s).ecause = if s.err then s.ecause else c.code := rfl
@[simp] theorem reject_sr (c : Cause) : (reject c s).sr = s.sr := rfl
@[simp] theorem reject_vis (c : Cause) : (reject c s).vis = s.vis := rfl
@[simp] theorem reject_cfg (c : Cause) : (reject c s).cfg = s.cfg := rfl
@[simp] theorem reject_rstIn (c : Cause) : (reject c s).rstIn = s.rstIn := rfl
@[simp] theorem reject_cmdIn (c : Cause) : (reject c s).cmdIn = s.cmdIn := rfl
@[simp] theorem reject_trace (c : Cause) : (reject c s).trace = s.trace ++ [.reject c] := rfl

/-! ## applyReset -/

@[simp] theorem applyReset_slot : (applyReset s).slot = Vector.replicate 6 0x3FF := rfl
@[simp] theorem applyReset_acc : (applyReset s).acc = 0 := rfl
@[simp] theorem applyReset_pend : (applyReset s).pend = 0 := rfl
@[simp] theorem applyReset_idx : (applyReset s).idx = 0 := rfl
@[simp] theorem applyReset_fsm : (applyReset s).fsm = .idle := rfl
@[simp] theorem applyReset_latch : (applyReset s).latch = false := rfl
@[simp] theorem applyReset_hv : (applyReset s).hv = false := rfl
@[simp] theorem applyReset_lamp : (applyReset s).lamp = false := rfl
@[simp] theorem applyReset_err : (applyReset s).err = false := rfl
@[simp] theorem applyReset_ecause : (applyReset s).ecause = 0 := rfl
@[simp] theorem applyReset_sr : (applyReset s).sr = s.sr := rfl
@[simp] theorem applyReset_vis : (applyReset s).vis = s.vis := rfl
@[simp] theorem applyReset_cfg : (applyReset s).cfg = s.cfg := rfl
@[simp] theorem applyReset_rstIn : (applyReset s).rstIn = s.rstIn := rfl
@[simp] theorem applyReset_cmdIn : (applyReset s).cmdIn = s.cmdIn := rfl
@[simp] theorem applyReset_trace : (applyReset s).trace = s.trace := rfl

/-! ## tick -/

@[simp] theorem tick_slot : (tick s).slot = s.slot := rfl
@[simp] theorem tick_acc : (tick s).acc = s.acc := rfl
@[simp] theorem tick_pend : (tick s).pend = s.pend := rfl
@[simp] theorem tick_idx : (tick s).idx = s.idx := rfl
@[simp] theorem tick_fsm : (tick s).fsm = s.fsm := rfl
@[simp] theorem tick_latch : (tick s).latch = s.latch := rfl
@[simp] theorem tick_hv : (tick s).hv = s.hv := rfl
@[simp] theorem tick_lamp : (tick s).lamp = s.lamp := rfl
@[simp] theorem tick_err : (tick s).err = s.err := rfl
@[simp] theorem tick_ecause : (tick s).ecause = s.ecause := rfl
@[simp] theorem tick_sr : (tick s).sr = s.sr := rfl
@[simp] theorem tick_vis : (tick s).vis = s.vis := rfl
@[simp] theorem tick_cfg : (tick s).cfg = s.cfg := rfl
@[simp] theorem tick_rstIn : (tick s).rstIn = s.rstIn.tail := rfl
@[simp] theorem tick_cmdIn : (tick s).cmdIn = s.cmdIn := rfl
@[simp] theorem tick_trace : (tick s).trace = s.trace := rfl

/-! ## consume -/

@[simp] theorem consume_slot : (consume s).slot = s.slot := rfl
@[simp] theorem consume_acc : (consume s).acc = s.acc := rfl
@[simp] theorem consume_pend : (consume s).pend = s.pend := rfl
@[simp] theorem consume_idx : (consume s).idx = s.idx := rfl
@[simp] theorem consume_fsm : (consume s).fsm = s.fsm := rfl
@[simp] theorem consume_latch : (consume s).latch = s.latch := rfl
@[simp] theorem consume_hv : (consume s).hv = s.hv := rfl
@[simp] theorem consume_lamp : (consume s).lamp = s.lamp := rfl
@[simp] theorem consume_err : (consume s).err = s.err := rfl
@[simp] theorem consume_ecause : (consume s).ecause = s.ecause := rfl
@[simp] theorem consume_sr : (consume s).sr = s.sr := rfl
@[simp] theorem consume_vis : (consume s).vis = s.vis := rfl
@[simp] theorem consume_cfg : (consume s).cfg = s.cfg := rfl
@[simp] theorem consume_rstIn : (consume s).rstIn = s.rstIn.tail := rfl
@[simp] theorem consume_cmdIn : (consume s).cmdIn = s.cmdIn.tail := rfl
@[simp] theorem consume_trace : (consume s).trace = s.trace := rfl

/-! ## sendByte -/

@[simp] theorem sendByte_slot : (sendByte s).slot = s.slot := rfl
@[simp] theorem sendByte_acc : (sendByte s).acc = s.acc <<< 8 := rfl
@[simp] theorem sendByte_pend : (sendByte s).pend = s.pend - 8 := rfl
@[simp] theorem sendByte_idx : (sendByte s).idx = s.idx := rfl
@[simp] theorem sendByte_fsm : (sendByte s).fsm = s.fsm := rfl
@[simp] theorem sendByte_latch : (sendByte s).latch = s.latch := rfl
@[simp] theorem sendByte_hv : (sendByte s).hv = s.hv := rfl
@[simp] theorem sendByte_lamp : (sendByte s).lamp = s.lamp := rfl
@[simp] theorem sendByte_err : (sendByte s).err = s.err := rfl
@[simp] theorem sendByte_ecause : (sendByte s).ecause = s.ecause := rfl
@[simp] theorem sendByte_sr : (sendByte s).sr = chainTakeByte s.cfg s.sr (s.acc.extractLsb' 8 8) := rfl
@[simp] theorem sendByte_vis : (sendByte s).vis = s.vis := rfl
@[simp] theorem sendByte_cfg : (sendByte s).cfg = s.cfg := rfl
@[simp] theorem sendByte_rstIn : (sendByte s).rstIn = s.rstIn := rfl
@[simp] theorem sendByte_cmdIn : (sendByte s).cmdIn = s.cmdIn := rfl
@[simp] theorem sendByte_trace : (sendByte s).trace = s.trace ++ [.tx (s.acc.extractLsb' 8 8)] := rfl

/-! ## latchUp -/

@[simp] theorem latchUp_slot : (latchUp s).slot = s.slot := rfl
@[simp] theorem latchUp_acc : (latchUp s).acc = s.acc := rfl
@[simp] theorem latchUp_pend : (latchUp s).pend = s.pend := rfl
@[simp] theorem latchUp_idx : (latchUp s).idx = s.idx := rfl
@[simp] theorem latchUp_fsm : (latchUp s).fsm = s.fsm := rfl
@[simp] theorem latchUp_latch : (latchUp s).latch = true := rfl
@[simp] theorem latchUp_hv : (latchUp s).hv = s.hv := rfl
@[simp] theorem latchUp_lamp : (latchUp s).lamp = s.lamp := rfl
@[simp] theorem latchUp_err : (latchUp s).err = s.err := rfl
@[simp] theorem latchUp_ecause : (latchUp s).ecause = s.ecause := rfl
@[simp] theorem latchUp_sr : (latchUp s).sr = s.sr := rfl
@[simp] theorem latchUp_vis : (latchUp s).vis = s.sr.extractLsb' 0 60 := rfl
@[simp] theorem latchUp_cfg : (latchUp s).cfg = s.cfg := rfl
@[simp] theorem latchUp_rstIn : (latchUp s).rstIn = s.rstIn := rfl
@[simp] theorem latchUp_cmdIn : (latchUp s).cmdIn = s.cmdIn := rfl
@[simp] theorem latchUp_trace : (latchUp s).trace = s.trace ++ [.latchRise] := rfl

/-! ## latchDown -/

@[simp] theorem latchDown_slot : (latchDown s).slot = s.slot := rfl
@[simp] theorem latchDown_acc : (latchDown s).acc = s.acc := rfl
@[simp] theorem latchDown_pend : (latchDown s).pend = s.pend := rfl
@[simp] theorem latchDown_idx : (latchDown s).idx = s.idx := rfl
@[simp] theorem latchDown_fsm : (latchDown s).fsm = s.fsm := rfl
@[simp] theorem latchDown_latch : (latchDown s).latch = false := rfl
@[simp] theorem latchDown_hv : (latchDown s).hv = s.hv := rfl
@[simp] theorem latchDown_lamp : (latchDown s).lamp = s.lamp := rfl
@[simp] theorem latchDown_err : (latchDown s).err = s.err := rfl
@[simp] theorem latchDown_ecause : (latchDown s).ecause = s.ecause := rfl
@[simp] theorem latchDown_sr : (latchDown s).sr = s.sr := rfl
@[simp] theorem latchDown_vis : (latchDown s).vis = s.vis := rfl
@[simp] theorem latchDown_cfg : (latchDown s).cfg = s.cfg := rfl
@[simp] theorem latchDown_rstIn : (latchDown s).rstIn = s.rstIn := rfl
@[simp] theorem latchDown_cmdIn : (latchDown s).cmdIn = s.cmdIn := rfl
@[simp] theorem latchDown_trace : (latchDown s).trace = s.trace ++ [.latchFall] := rfl

/-! ## afterInit -/

@[simp] theorem afterInit_slot : (afterInit s).slot = s.slot := rfl
@[simp] theorem afterInit_acc : (afterInit s).acc = 0 := rfl
@[simp] theorem afterInit_pend : (afterInit s).pend = 4 := rfl
@[simp] theorem afterInit_idx : (afterInit s).idx = 0 := rfl
@[simp] theorem afterInit_fsm : (afterInit s).fsm = .check := rfl
@[simp] theorem afterInit_latch : (afterInit s).latch = false := rfl
@[simp] theorem afterInit_hv : (afterInit s).hv = s.hv := rfl
@[simp] theorem afterInit_lamp : (afterInit s).lamp = s.lamp := rfl
@[simp] theorem afterInit_err : (afterInit s).err = s.err := rfl
@[simp] theorem afterInit_ecause : (afterInit s).ecause = s.ecause := rfl
@[simp] theorem afterInit_sr : (afterInit s).sr = s.sr := rfl
@[simp] theorem afterInit_vis : (afterInit s).vis = s.vis := rfl
@[simp] theorem afterInit_cfg : (afterInit s).cfg = s.cfg := rfl
@[simp] theorem afterInit_rstIn : (afterInit s).rstIn = s.rstIn := rfl
@[simp] theorem afterInit_cmdIn : (afterInit s).cmdIn = s.cmdIn := rfl
@[simp] theorem afterInit_trace : (afterInit s).trace = s.trace := rfl

/-! ## afterFill -/

@[simp] theorem afterFill_slot (h : s.idx.toNat < 6) : (afterFill s h).slot = s.slot := rfl
@[simp] theorem afterFill_acc (h : s.idx.toNat < 6) : (afterFill s h).acc = s.acc ||| ((s.slot[s.idx.toNat]'h).setWidth 16 <<< (6 - s.pend.toNat)) := rfl
@[simp] theorem afterFill_pend (h : s.idx.toNat < 6) : (afterFill s h).pend = s.pend + 10 := rfl
@[simp] theorem afterFill_idx (h : s.idx.toNat < 6) : (afterFill s h).idx = s.idx + 1 := rfl
@[simp] theorem afterFill_fsm (h : s.idx.toNat < 6) : (afterFill s h).fsm = .check := rfl
@[simp] theorem afterFill_latch (h : s.idx.toNat < 6) : (afterFill s h).latch = s.latch := rfl
@[simp] theorem afterFill_hv (h : s.idx.toNat < 6) : (afterFill s h).hv = s.hv := rfl
@[simp] theorem afterFill_lamp (h : s.idx.toNat < 6) : (afterFill s h).lamp = s.lamp := rfl
@[simp] theorem afterFill_err (h : s.idx.toNat < 6) : (afterFill s h).err = s.err := rfl
@[simp] theorem afterFill_ecause (h : s.idx.toNat < 6) : (afterFill s h).ecause = s.ecause := rfl
@[simp] theorem afterFill_sr (h : s.idx.toNat < 6) : (afterFill s h).sr = s.sr := rfl
@[simp] theorem afterFill_vis (h : s.idx.toNat < 6) : (afterFill s h).vis = s.vis := rfl
@[simp] theorem afterFill_cfg (h : s.idx.toNat < 6) : (afterFill s h).cfg = s.cfg := rfl
@[simp] theorem afterFill_rstIn (h : s.idx.toNat < 6) : (afterFill s h).rstIn = s.rstIn := rfl
@[simp] theorem afterFill_cmdIn (h : s.idx.toNat < 6) : (afterFill s h).cmdIn = s.cmdIn := rfl
@[simp] theorem afterFill_trace (h : s.idx.toNat < 6) : (afterFill s h).trace = s.trace := rfl

end Sys2Proof.Machine
end

