-- ==== Sys2Proof/Laws/Ops.lean ====
section
/-! SUPPORT. Everything the meaning of an operation can do, said once (rule R76, the IDLE arm). -/

namespace Sys2Proof.Machine

variable {i : Instr} {s t : State}

/-- A position selects a slot exactly when it is in 1..6 (rule R50). -/
theorem foldIndex_eq_some {p : BitVec 3} (h : 1 ≤ p.toNat ∧ p.toNat ≤ 6) :
    foldIndex p = some ⟨6 - p.toNat, by omega⟩ := dif_pos h

theorem foldIndex_eq_none {p : BitVec 3} (h : ¬(1 ≤ p.toNat ∧ p.toNat ≤ 6)) : foldIndex p = none := dif_neg h

/-- A value up to 10 has a table entry (rule R70). -/
theorem encodeDigit_eq_some {cfg : Config} {v : BitVec 4} (h : v.toNat ≤ 10) :
    encodeDigit cfg v = some (rom cfg ⟨v.toNat, by omega⟩) := dif_pos h

theorem encodeDigit_eq_none {cfg : Config} {v : BitVec 4} (h : ¬v.toNat ≤ 10) : encodeDigit cfg v = none :=
  dif_neg h

/-- Whatever the encoder answers is a table entry (rule R12). -/
theorem rom_of_encodeDigit {cfg : Config} {v : BitVec 4} {c : Code} (h : encodeDigit cfg v = some c) :
    ∃ d : Digit, c = rom cfg d := by
  unfold encodeDigit at h
  split at h
  · exact ⟨_, (Option.some.inj h).symm⟩
  · cases h

/-- What an accepted operation does: it writes one slot with a table entry, rejects, starts the serializer, or
drives a line. -/
theorem exec_cases (h : exec i s = .next t) :
    (∃ p v k c, i = .setdigit p v ∧ foldIndex p = some k ∧ encodeDigit s.cfg v = some c ∧ t = writeSlot k c s) ∨
    (∃ p v, i = .setdigit p v ∧ foldIndex p = none ∧ t = reject .badPosition s) ∨
    (∃ p v k, i = .setdigit p v ∧ foldIndex p = some k ∧ encodeDigit s.cfg v = none ∧ t = reject .badValue s) ∨
    (i = .commit ∧ t = goto .init s) ∨
    (∃ e, i = .sethv e ∧ t = driveHv e s) ∨
    (∃ e, i = .setlamp e ∧ t = driveLamp e s) := by
  cases i with
  | setdigit p v =>
    simp only [exec, execSetdigit] at h
    split at h
    · next hp => cases h; exact .inr (.inl ⟨p, v, rfl, hp, rfl⟩)
    · next k hp =>
      split at h
      · next hv => cases h; exact .inr (.inr (.inl ⟨p, v, k, rfl, hp, hv, rfl⟩))
      · next c hv => cases h; exact .inl ⟨p, v, k, c, rfl, hp, hv, rfl⟩
  | commit => cases h; exact .inr (.inr (.inr (.inl ⟨rfl, rfl⟩)))
  | sethv e => cases h; exact .inr (.inr (.inr (.inr (.inl ⟨e, rfl, rfl⟩))))
  | setlamp e => cases h; exact .inr (.inr (.inr (.inr (.inr ⟨e, rfl, rfl⟩))))

/-- Every operation completes in the step that accepts it. -/
theorem exec_total (i : Instr) (s : State) : ∃ t, exec i s = .next t := by
  cases i with
  | setdigit p v =>
    simp only [exec, execSetdigit]
    split
    · exact ⟨_, rfl⟩
    · split <;> exact ⟨_, rfl⟩
  | commit => exact ⟨_, rfl⟩
  | sethv e => exact ⟨_, rfl⟩
  | setlamp e => exact ⟨_, rfl⟩

end Sys2Proof.Machine
end

