-- ==== Sys2Proof/Laws/PerInstr.lean ====
section
/-! SUPPORT. Statements made for every instruction, one lemma per constructor. -/

namespace Sys2Proof.Laws

/-- The opcode-table row of an operation (rule R55). -/
def rowOf : Instr → Row
  | .setdigit _ _ => .setdigit
  | .commit => .commit
  | .sethv _ => .sethv
  | .setlamp _ => .setlamp

/-- The encoding of an operation is selected by its own row and reads back its operands (rule R55). -/
def RowMatch.Statement (i : Instr) : Prop :=
  (rowOf i).selects (encode i) = true ∧ (rowOf i).read (encode i) = i

theorem RowMatch.setdigit : ∀ (pos : BitVec 3) (val : BitVec 4), RowMatch.Statement (.setdigit pos val) := by
  unfold RowMatch.Statement
  decide

theorem RowMatch.commit : RowMatch.Statement .commit := by
  unfold RowMatch.Statement
  decide

theorem RowMatch.sethv : ∀ en : Bool, RowMatch.Statement (.sethv en) := by
  unfold RowMatch.Statement
  decide

theorem RowMatch.setlamp : ∀ en : Bool, RowMatch.Statement (.setlamp en) := by
  unfold RowMatch.Statement
  decide

end Sys2Proof.Laws
end

