-- ==== Sys2Proof/Laws/Port.lean ====
section
/-! SUPPORT. The inputs of a step: the word at the port, and reset-free stretches. -/

namespace Sys2Proof.Machine

variable {s t : State} {n : Nat}

theorem cmdNow_of_cons {w : Byte} {rest : List (Option Byte)} (h : s.cmdIn = some w :: rest) :
    cmdNow s = some w := by simp [cmdNow, h]

/-- `cmdNow` depends on the queue alone. -/
theorem cmdNow_congr (h : t.cmdIn = s.cmdIn) : cmdNow t = cmdNow s := by simp [cmdNow, h]

/-- A reset-free stretch starts with a reset-free step. -/
theorem noResetFor.now (h : noResetFor (n + 1) s) : rstNow s = false := by
  have h0 := h 0 (by omega)
  unfold rstNow
  cases hr : s.rstIn <;> simp_all

/-- After a step that uses up one entry of `rstIn`, the rest of the stretch is reset-free. -/
theorem noResetFor.tail (h : noResetFor (n + 1) s) (ht : t.rstIn = s.rstIn.tail) : noResetFor n t := by
  intro i hi
  have hs := h (i + 1) (by omega)
  rw [ht]
  cases hr : s.rstIn <;> simp_all

/-- In a reset-free stretch, `rst` is not asserted after as many steps as the stretch has left behind. -/
theorem noResetFor.at {k : Nat} (h : noResetFor n s) (hk : k < n) (ht : t.rstIn = s.rstIn.drop k) :
    rstNow t = false := by
  have hs := h k hk
  rw [List.getD_eq_getElem?_getD] at hs
  rw [rstNow, ht, List.headD_eq_head?_getD, List.head?_drop]
  exact hs

end Sys2Proof.Machine
end

