-- ==== Sys2Proof/Laws/Step.lean ====
section
/-! SUPPORT. Everything one step can do, said once (rules R76, R140), and the run as an iteration of steps. -/

namespace Sys2Proof.Machine

variable {s t : State}

/-- What a step can do when it answers a next state. -/
inductive StepCase (s t : State) : Prop where
  | reset (hr : rstNow s = true) (ht : t = applyReset (tick s))
  | quiet (hr : rstNow s = false) (hf : s.fsm = .idle) (he : s.pend.toNat % 2 = 0) (hc : cmdNow s = none) (ht : t = consume s)
  | reserved (hr : rstNow s = false) (hf : s.fsm = .idle) (he : s.pend.toNat % 2 = 0) (w : Byte) (hc : cmdNow s = some w) (c : Cause)
      (hw : readWord w = .error c) (ht : t = reject c (consume s))
  | accept (hr : rstNow s = false) (hf : s.fsm = .idle) (he : s.pend.toNat % 2 = 0) (w : Byte) (hc : cmdNow s = some w) (i : Instr)
      (hw : readWord w = .ok i) (ht : exec i (consume s) = .next t)
  | init (hr : rstNow s = false) (hf : s.fsm = .init) (he : s.pend.toNat % 2 = 0) (ht : t = afterInit (tick s))
  | toFill (hr : rstNow s = false) (hf : s.fsm = .check) (he : s.pend.toNat % 2 = 0) (hp : s.pend < 8)
      (hi : s.idx ≠ 6) (ht : t = goto .fill (tick s))
  | toOutput (hr : rstNow s = false) (hf : s.fsm = .check) (he : s.pend.toNat % 2 = 0) (hp : ¬s.pend < 8)
      (ht : t = goto .output (tick s))
  | fill (hr : rstNow s = false) (hf : s.fsm = .fill) (he : s.pend.toNat % 2 = 0) (hi : (tick s).idx.toNat < 6)
      (hp : s.pend.toNat ≤ 6) (ht : t = afterFill (tick s) hi)
  | output (hr : rstNow s = false) (hf : s.fsm = .output) (he : s.pend.toNat % 2 = 0) (hp : ¬s.pend < 8)
      (hi : s.idx ≠ 6) (ht : t = goto .check (sendByte (tick s)))
  | last (hr : rstNow s = false) (hf : s.fsm = .output) (hp : s.pend = 16) (hi : s.idx = 6)
      (ht : t = goto .done (sendByte (sendByte (tick s))))
  | done (hr : rstNow s = false) (hf : s.fsm = .done) (he : s.pend.toNat % 2 = 0)
      (ht : t = goto .idle (latchDown (latchUp (tick s))))

/-- The inversion lemma of the step function. -/
theorem step_cases (h : step s = .next t) : StepCase s t := by
  unfold step at h
  split at h
  · next hr => cases h; exact .reset hr rfl
  · next hr =>
    have hr : rstNow s = false := by simpa using hr
    unfold stepNoReset at h
    split at h
    swap
    · cases h
    · next he =>
      unfold visitState at h
      split at h
      · next hf =>
        unfold stepIdle at h
        split at h
        · next hc => cases h; exact .quiet hr hf he hc rfl
        · next w hc =>
          unfold runWord at h
          split at h
          · next i hw => exact .accept hr hf he w hc i hw h
          · next c hw => cases h; exact .reserved hr hf he w hc c hw rfl
      · next hf => cases h; exact .init hr hf he rfl
      · next hf =>
        unfold stepCheck at h
        split at h
        · next hp =>
          split at h
          · cases h
          · next hi => cases h; exact .toFill hr hf he hp hi rfl
        · next hp => cases h; exact .toOutput hr hf he hp rfl
      · next hf =>
        unfold stepFill at h
        split at h
        · next hi => cases h; exact .fill hr hf he hi.1 hi.2 rfl
        · cases h
      · next hf =>
        unfold stepOutput at h
        split at h
        · cases h
        · next hp =>
          split at h
          · next hi =>
            split at h
            · next hp' => cases h; exact .last hr hf hp' hi rfl
            · cases h
          · next hi => cases h; exact .output hr hf he hp hi rfl
      · next hf => cases h; exact .done hr hf he rfl

/-- A run of n + 1 steps is one step and a run of n steps. -/
theorem run_succ {n : Nat} {u : State} (h : step s = .next u) :
    Host.Core.run Sys2Proof.core (n + 1) s = Host.Core.run Sys2Proof.core n u := by
  have hs : Sys2Proof.core.step s = .next u := h
  simp only [Host.Core.run, hs]

theorem run_zero : Host.Core.run Sys2Proof.core 0 s = .next s := rfl

/-- A run of n steps and one step more. -/
theorem run_snoc {n : Nat} {u : State} (h : Host.Core.run Sys2Proof.core n s = .next t) (hu : step t = .next u) :
    Host.Core.run Sys2Proof.core (n + 1) s = .next u := by
  induction n generalizing s with
  | zero =>
    cases (run_zero (s := s)).symm.trans h
    rw [run_succ hu, run_zero]
  | succ n ih =>
    cases hs : step s with
    | next r =>
      rw [run_succ hs] at h ⊢
      exact ih h
    | fault r =>
      have hs : Sys2Proof.core.step s = .fault r := hs
      simp [Host.Core.run, hs] at h
    | refused r =>
      have hs : Sys2Proof.core.step s = .refused r := hs
      simp [Host.Core.run, hs] at h

end Sys2Proof.Machine
end

