-- ==== Sys2Proof/Laws/Serializer.lean ====
section
/-! SUPPORT. What each serializer state does under the condition that selects it, and the dispatch of a step on
`fsm` (rules R76 to R82, R100). -/

namespace Sys2Proof.Machine

variable {s : State}

theorem stepInit_eq : stepInit s = .next (afterInit s) := rfl

theorem stepCheck_fill (hp : s.pend < 8) (hi : s.idx ≠ 6) : stepCheck s = .next (goto .fill s) := by
  unfold stepCheck
  rw [if_pos hp, if_neg hi]

theorem stepCheck_output (hp : ¬s.pend < 8) : stepCheck s = .next (goto .output s) := by
  unfold stepCheck
  rw [if_neg hp]

theorem stepCheck_stuck (hp : s.pend < 8) (hi : s.idx = 6) : stepCheck s = .fault .stuckCheck := by
  unfold stepCheck
  rw [if_pos hp, if_pos hi]

theorem stepFill_eq (hi : s.idx.toNat < 6) (hp : s.pend.toNat ≤ 6) : stepFill s = .next (afterFill s hi) := by
  unfold stepFill
  rw [dif_pos ⟨hi, hp⟩]
  rfl

theorem stepFill_stuck (h : ¬(s.idx.toNat < 6 ∧ s.pend.toNat ≤ 6)) : stepFill s = .fault .stuckFill := by
  unfold stepFill
  rw [dif_neg h]

theorem stepOutput_more (hp : ¬s.pend < 8) (hi : s.idx ≠ 6) :
    stepOutput s = .next (goto .check (sendByte s)) := by
  unfold stepOutput
  rw [if_neg hp, if_neg hi]

theorem stepOutput_last (hp : s.pend = 16) (hi : s.idx = 6) :
    stepOutput s = .next (goto .done (sendByte (sendByte s))) := by
  have h8 : ¬s.pend < 8 := by rw [hp]; decide
  unfold stepOutput
  rw [if_neg h8, if_pos hi, if_pos hp]

theorem stepOutput_stuck (hp : s.pend < 8) : stepOutput s = .fault .stuckOutput := by
  unfold stepOutput
  rw [if_pos hp]

theorem stepOutput_stuckLast (hp : ¬s.pend < 8) (hi : s.idx = 6) (h16 : s.pend ≠ 16) :
    stepOutput s = .fault .stuckLastByte := by
  unfold stepOutput
  rw [if_neg hp, if_pos hi, if_neg h16]

theorem step_noReset (hr : rstNow s = false) : step s = stepNoReset s := by
  unfold step
  rw [hr]
  rfl

theorem step_reset (hr : rstNow s = true) : step s = .next (applyReset (tick s)) := by
  unfold step
  rw [if_pos hr]

/-- With an even `pend` a step without reset is one visit to the FSM state. -/
theorem step_of_even (hr : rstNow s = false) (he : s.pend.toNat % 2 = 0) : step s = visitState s := by
  rw [step_noReset hr, stepNoReset, if_pos he]

/-- With an odd `pend` there is no step without reset (rule R92; D21). -/
theorem step_of_odd (hr : rstNow s = false) (ho : s.pend.toNat % 2 = 1) : step s = .fault .stuckOddPend := by
  rw [step_noReset hr, stepNoReset, if_neg (by omega)]

theorem visitState_idle (hf : s.fsm = .idle) : visitState s = stepIdle s := by
  unfold visitState
  rw [hf]

theorem visitState_init (hf : s.fsm = .init) : visitState s = stepInit (tick s) := by
  unfold visitState
  rw [hf]

theorem visitState_check (hf : s.fsm = .check) : visitState s = stepCheck (tick s) := by
  unfold visitState
  rw [hf]

theorem visitState_fill (hf : s.fsm = .fill) : visitState s = stepFill (tick s) := by
  unfold visitState
  rw [hf]

theorem visitState_output (hf : s.fsm = .output) : visitState s = stepOutput (tick s) := by
  unfold visitState
  rw [hf]

theorem visitState_done (hf : s.fsm = .done) : visitState s = stepDone (tick s) := by
  unfold visitState
  rw [hf]

/-- The converse of `step_cases`: what a case says is what the step answers. -/
theorem step_of_case {t : State} (h : StepCase s t) : step s = .next t := by
  cases h with
  | reset hr ht => rw [step_reset hr, ht]
  | quiet hr hf he hc ht => rw [step_of_even hr he, visitState_idle hf, stepIdle, hc, ht]
  | reserved hr hf he w hc c hw ht =>
    simp only [step_of_even hr he, visitState_idle hf, stepIdle, hc, runWord, hw, ht]
  | accept hr hf he w hc i hw ht =>
    simp only [step_of_even hr he, visitState_idle hf, stepIdle, hc, runWord, hw, ht]
  | init hr hf he ht => rw [step_of_even hr he, visitState_init hf, stepInit_eq, ht]
  | toFill hr hf he hp hi ht =>
    rw [step_of_even hr he, visitState_check hf, stepCheck_fill (s := tick s) hp hi, ht]
  | toOutput hr hf he hp ht =>
    rw [step_of_even hr he, visitState_check hf, stepCheck_output (s := tick s) hp, ht]
  | fill hr hf he hi hp ht =>
    rw [step_of_even hr he, visitState_fill hf, stepFill_eq (s := tick s) hi hp, ht]
  | output hr hf he hp hi ht =>
    rw [step_of_even hr he, visitState_output hf, stepOutput_more (s := tick s) hp hi, ht]
  | last hr hf hp hi ht =>
    rw [step_of_even hr (by rw [hp]; rfl), visitState_output hf, stepOutput_last (s := tick s) hp hi, ht]
  | done hr hf he ht => rw [step_of_even hr he, visitState_done hf, stepDone, ht]

end Sys2Proof.Machine
end

