-- ==== Sys2Proof/Tests/Slice0.lean ====
section
/-! SUPPORT. Tests with expected values from spec/95_test_vectors.md and the worked examples of the rules, and a
witness for the hypotheses of each statement. -/

namespace Sys2Proof.Tests

open Sys2Proof.Machine

/-- The next state, if there is one. -/
def after : Host.Outcome State Fault Refusal → Option State
  | .next s => some s
  | .fault _ => none
  | .refused _ => none

/-- The reset state with one word at the port. -/
def offered (w : Byte) : State := { State.reset with cmdIn := [some w] }

/-- The reset state moved to a serializer configuration, a word waiting at the port. -/
def serial (f : Fsm) (p : BitVec 5) (i : BitVec 3) : State :=
  { State.reset with fsm := f, pend := p, idx := i, cmdIn := [some 0x15] }

/-! ## WellFormed: an ill-formed term for each check -/

theorem test_position_zero_illFormed : (Instr.setdigit 0 5).wellFormed = false := by decide
theorem test_position_seven_illFormed : (Instr.setdigit 7 5).wellFormed = false := by decide
theorem test_value_eleven_illFormed : (Instr.setdigit 1 11).wellFormed = false := by decide
theorem test_blank_on_six_wellFormed : (Instr.setdigit 6 10).wellFormed = true := by decide

/-! ## Decode: words written out from rule R55 (V13, V16, V24 to V28) -/

theorem test_decode_setdigit_1_7 : readWord 0b00010111 = .ok (.setdigit 1 7) := rfl
theorem test_decode_setdigit_3_blank : readWord 0b00111010 = .ok (.setdigit 3 10) := rfl
theorem test_decode_commit : readWord 0b10000000 = .ok .commit := rfl
theorem test_decode_sethv : readWord 0b10010001 = .ok (.sethv true) := rfl
theorem test_decode_setlamp : readWord 0b10100000 = .ok (.setlamp false) := rfl
theorem test_decode_reserved : readWord 0b10110000 = .error .reservedCommand := rfl
/-- V18, V22: both operands bad reports the position. -/
theorem test_decode_bad_operands :
    decode 0x2B = .error .badValue ∧ decode 0x7F = .error .badPosition ∧ decode 0x00 = .error .badPosition :=
  ⟨rfl, rfl, rfl⟩
/-- Program P2's words. -/
theorem test_encode_program_words :
    [Instr.setdigit 1 7, .setdigit 5 9, .commit, .sethv true, .setlamp true].map encode =
      [0x17, 0x59, 0x80, 0x91, 0xA1] := by decide
theorem test_decodeTableWord : decodeTableWord 8 0x91 = some (.sethv true) ∧ decodeTableWord 8 0xFF = none :=
  ⟨rfl, rfl⟩

/-! ## The digit encoder and the frame (V1 to V12, V38, V42, V44, V49) -/

theorem test_rom_default :
    (List.finRange 11).map (rom Config.default) =
      [0x3FE, 0x3FD, 0x3FB, 0x3F7, 0x3EF, 0x3DF, 0x3BF, 0x37F, 0x2FF, 0x1FF, 0x3FF] := by decide
theorem test_encodeDigit_eleven : encodeDigit Config.default 11 = none := by decide
theorem test_unrom : unrom Config.default 0x2FF = some 8 ∧ unrom Config.default 0x3FC = none := by decide
theorem test_pack_V44 :
    pack #v[0x3F7, 0x1FF, 0x3FB, 0x3FD, 0x3FE, 0x37F] =
      #v[0x0F, 0xDD, 0xFF, 0xFE, 0xFF, 0xDF, 0xFB, 0x7F] := by decide
theorem test_pack_V49 :
    pack #v[0x2AA, 0x155, 0x2AA, 0x155, 0x2AA, 0x155] =
      #v[0x0A, 0xA9, 0x55, 0xAA, 0x95, 0x5A, 0xA9, 0x55] := by decide
theorem test_stream_V38 : stream #v[0x1FF, 0x3FF, 0x3FF, 0x3FF, 0x3FF, 0x3FF] = 0x07FFFFFFFFFFFFFF := by decide
/-- V42: the decoder ignores pad bits that a faulty sender set. -/
theorem test_unpack_V42 :
    unpack #v[0xFE, 0xFF, 0xDF, 0xFB, 0xFF, 0x7F, 0xEF, 0xFD] =
      #v[0x3BF, 0x3DF, 0x3EF, 0x3F7, 0x3FB, 0x3FD] := by decide
/-- Rule R25: bit 7 first, so the byte stands in the chain as it stands in the stream. -/
theorem test_chain_takes_byte :
    chainTakeByte Config.default 0x0F 0xA6 = 0x0FA6 ∧
    chainTakeByte { Config.default with txMsbFirst := false } 0 0xA6 = 0x65 := by decide

/-! ## Meanings -/

/-- V13. -/
theorem test_exec_setdigit :
    (after (exec (.setdigit 1 7) State.reset)).map (fun t => (t.slot, t.trace)) =
      some (#v[0x3FF, 0x3FF, 0x3FF, 0x3FF, 0x3FF, 0x37F], []) := by decide
/-- V18. -/
theorem test_exec_setdigit_bad_value :
    (after (exec (.setdigit 2 11) State.reset)).map (fun t => (t.slot[4], t.err, t.ecause, t.trace)) =
      some (0x3FF, true, 2, [.reject .badValue]) := by decide
/-- V24. -/
theorem test_exec_commit :
    (after (exec .commit State.reset)).map (fun t => (t.fsm, t.trace)) = some (.init, []) := by decide
/-- V26. -/
theorem test_exec_sethv :
    (after (exec (.sethv true) State.reset)).map (fun t => (t.hv, t.lamp, t.trace)) =
      some (true, false, [.hv true]) := by decide
/-- V27. -/
theorem test_exec_setlamp :
    (after (exec (.setlamp true) State.reset)).map (fun t => (t.hv, t.lamp, t.trace)) =
      some (false, true, [.lamp true]) := by decide
/-- Program P4: a later reject keeps the first cause and emits its own. -/
theorem test_step_second_reject :
    (after (step { offered 0xFF with err := true, ecause := 2 })).map (fun t => (t.err, t.ecause, t.trace)) =
      some (true, 2, [.reject .reservedCommand]) := by decide

/-! ## Serializer steps (the table of V30) -/

theorem test_step_init :
    (after (step { serial .init 0 6 with acc := 0x1234 })).map
      (fun t => (t.acc, t.pend, t.idx, t.fsm)) = some (0, 4, 0, .check) := by decide
/-- Step 10: the comparison is strict. -/
theorem test_step_check_eight : (after (step (serial .check 8 2))).map (·.fsm) = some .output := by decide
theorem test_step_check_six : (after (step (serial .check 6 5))).map (·.fsm) = some .fill := by decide
/-- Step 17. -/
theorem test_step_fill :
    (after (step { serial .fill 2 3 with
        acc := 0xC000, slot := #v[0x3F7, 0x1FF, 0x3FB, 0x3FD, 0x3FE, 0x37F] })).map
      (fun t => (t.acc, t.pend, t.idx, t.fsm)) = some (0xFFD0, 12, 4, .check) := by decide
/-- Step 15. -/
theorem test_step_output :
    (after (step { serial .output 10 3 with acc := 0xFEC0 })).map
      (fun t => (t.acc, t.pend, t.fsm, t.trace)) = some (0xC000, 2, .check, [.tx 0xFE]) := by decide
/-- Step 27. -/
theorem test_step_output_last :
    (after (step { serial .output 16 6 with acc := 0xFB7F })).map
      (fun t => (t.acc, t.pend, t.fsm, t.trace)) = some (0, 0, .done, [.tx 0xFB, .tx 0x7F]) := by decide
/-- Step 28. -/
theorem test_step_done :
    (after (step { serial .done 0 6 with sr := 0x0FDDFFFEFFDFFB7F })).map
      (fun t => (t.latch, t.fsm, t.trace, visCode t.vis 1)) =
      some (false, .idle, [.latchRise, .latchFall], 0x37F) := by decide
/-- V64: reset in the middle of a commit. -/
theorem test_step_reset_midCommit :
    (after (step { serial .output 12 4 with rstIn := [true], hv := true, trace := [.tx 0x0F] })).map
      (fun t => (t.fsm, t.hv, t.trace, t.cmdIn)) = some (.idle, false, [.tx 0x0F], [some 0x15]) := by decide
/-- Rule R61: a hold is used up in IDLE, and not while a commit runs. -/
theorem test_step_hold :
    (after (step { State.reset with cmdIn := [none, some 0x17] })).map (·.cmdIn) = some [some 0x17] ∧
    (after (step { serial .check 8 2 with cmdIn := [none, some 0x17] })).map (·.cmdIn) = some [none, some 0x17] := by
  decide
/-- Rule R92, D21: an odd `pend` gets no step in IDLE either, with a command or without one. -/
theorem test_step_idle_odd_pend :
    after (step (serial .idle 5 0)) = none ∧ after (step { serial .idle 5 0 with cmdIn := [] }) = none := by decide
theorem test_withFetchWord_runs :
    (after (step (State.reset.withFetchWord 8 0x17))).map (fun t => t.slot[5]) = some 0x37F := by decide
/-- Rule R132: 11 iterations of six SETDIGITs, one COMMIT and one hold. -/
theorem test_antipoison_round_length : antipoisonRound.length = 11 * (6 + 1 + 1) := by decide

/-! ## Witnesses: the hypotheses of each statement are met together -/

/-- OpcodeRowsNeverOverlap. -/
theorem witness_rows : Row.setdigit.selects 0x17 = true ∧ Row.setdigit.selects 0x17 = true := by decide
/-- DecodeAfterEncodeIsIdentity, the bad-position clause. -/
theorem witness_encode_ill_position : positionOk 7 = false ∧ positionOk 0 = false := by decide
/-- DecodeAfterEncodeIsIdentity, the bad-value clause. -/
theorem witness_encode_ill_value : positionOk 6 = true ∧ valueOk 11 = false ∧ positionOk 1 = true := by decide
/-- EncodeAfterDecodeIsIdentity. -/
theorem witness_decode : decode 0x6A = .ok (.setdigit 6 10) := rfl
/-- StepRunsDecodedInstruction and StepAgreesWithTotalDecode. -/
theorem witness_step_runs :
    rstNow (offered 0xA1) = false ∧ (offered 0xA1).fsm = .idle ∧ (offered 0xA1).pend.toNat % 2 = 0 ∧
    (offered 0xA1).cmdIn = some 0xA1 :: [] ∧ readWord 0xA1 = .ok (.setlamp true) := ⟨rfl, rfl, rfl, rfl, rfl⟩
/-- IdleWithoutCommandChangesNothing. -/
theorem witness_idle_quiet :
    rstNow State.reset = false ∧ State.reset.fsm = .idle ∧ State.reset.pend.toNat % 2 = 0 ∧ cmdNow State.reset = none := by
  decide
/-- HoldIsSpentInIdle: a hold of 2 ms at 3 steps each, with a word behind it, at both ends of the range. -/
theorem witness_hold :
    let s := { State.reset with cmdIn := (HostOp.hold 2).present 3 ++ [some 0x17] }
    s.fsm = .idle ∧ s.pend.toNat % 2 = 0 ∧ s.cmdIn = (HostOp.hold 2).present 3 ++ [some 0x17] ∧
    noResetFor (2 * 3) s ∧ 0 ≤ 2 * 3 ∧ 2 * 3 ≤ 2 * 3 := ⟨rfl, rfl, rfl, fun _ _ => rfl, by decide, by decide⟩
/-- CommandWaitsWhileBusy. -/
theorem witness_waits :
    rstNow (serial .check 8 2) = false ∧ busy (serial .check 8 2) = true ∧
    cmdNow (serial .check 8 2) = some 0x15 ∧ ∃ t, step (serial .check 8 2) = .next t :=
  ⟨rfl, rfl, rfl, _, rfl⟩
/-- ResetWinsInEveryStep. -/
theorem witness_reset :
    rstNow { serial .output 12 4 with rstIn := [true] } = true ∧
    cmdNow { serial .output 12 4 with rstIn := [true] } = some 0x15 := by decide
/-- DigitCodesAreDistinctAndInvertible, with the default parameters. -/
theorem witness_admissible : Config.default.Admissible := by decide
/-- DigitCodesAreDistinctAndInvertible, with another table and the shortest chain. -/
theorem witness_admissible_sixty_stages :
    Config.Admissible { cathode := #v[1, 2, 3, 4, 5, 6, 7, 8, 9, 0], txMsbFirst := true, latchHighCycles := 3,
                        chainLen := 60 } := by decide
/-- EncoderIsBoundsChecked, both clauses at their bounds. -/
theorem witness_encoder_bounds : (10 : BitVec 4).toNat ≤ 10 ∧ 11 ≤ (11 : BitVec 4).toNat := by decide
/-- SetdigitWritesExactlyItsSlot, lowest operands. -/
theorem witness_setdigit_first :
    (1 ≤ (1 : BitVec 3).toNat ∧ (1 : BitVec 3).toNat ≤ 6) ∧ (0 : BitVec 4).toNat ≤ 10 ∧ State.reset.fsm = .idle := by
  decide
/-- SetdigitWritesExactlyItsSlot, highest operands. -/
theorem witness_setdigit_last :
    (1 ≤ (6 : BitVec 3).toNat ∧ (6 : BitVec 3).toNat ≤ 6) ∧ (10 : BitVec 4).toNat ≤ 10 ∧ State.reset.fsm = .idle := by
  decide
/-- SetdigitRejectsBadOperands, cause 1. -/
theorem witness_setdigit_bad_position : State.reset.fsm = .idle ∧ ((7 : BitVec 3) = 0 ∨ (7 : BitVec 3) = 7) := by
  decide
/-- SetdigitRejectsBadOperands, cause 2. -/
theorem witness_setdigit_bad_value :
    State.reset.fsm = .idle ∧ ¬((6 : BitVec 3) = 0 ∨ (6 : BitVec 3) = 7) ∧ 10 < (11 : BitVec 4).toNat := by decide
/-- SetdigitTwiceEqualsOnce and LaterSetdigitReplacesEarlier. -/
theorem witness_setdigit_twice :
    positionOk 6 = true ∧ valueOk 10 = true ∧ valueOk 0 = true ∧ ∃ t, exec (.setdigit 6 10) State.reset = .next t :=
  ⟨rfl, rfl, rfl, _, rfl⟩
/-- SetdigitsToDifferentPositionsCommute. -/
theorem witness_setdigits_commute :
    (1 : BitVec 3) ≠ 6 ∧ positionOk 1 = true ∧ positionOk 6 = true ∧ valueOk 3 = true ∧ valueOk 10 = true ∧
    (∃ t, exec (.setdigit 1 3) State.reset = .next t) ∧ ∃ u, exec (.setdigit 6 10) State.reset = .next u :=
  ⟨by decide, rfl, rfl, rfl, rfl, ⟨_, rfl⟩, ⟨_, rfl⟩⟩
/-- SlotsChangeOnlyBySetdigit. -/
theorem witness_slot_changes :
    rstNow (offered 0x17) = false ∧
    ∃ t, step (offered 0x17) = .next t ∧ t.slot[(5 : Fin 6)] ≠ (offered 0x17).slot[(5 : Fin 6)] :=
  ⟨rfl, _, rfl, by decide⟩
/-- CommitOnlyStartsTheSerializer, SethvDrivesOnlyItsLine and SetlampDrivesOnlyItsLine. -/
theorem witness_commit_idle : State.reset.fsm = .idle := rfl
/-- InitClearsAndCountsPadding. -/
theorem witness_init :
    rstNow (serial .init 0 6) = false ∧ (serial .init 0 6).fsm = .init ∧ (serial .init 0 6).pend.toNat % 2 = 0 := by
  decide
/-- CheckBranchesOnEightBits, to FILL. -/
theorem witness_check_to_fill :
    rstNow (serial .check 6 5) = false ∧ (serial .check 6 5).fsm = .check ∧
    (serial .check 6 5).pend.toNat % 2 = 0 ∧ (serial .check 6 5).pend.toNat < 8 ∧ (serial .check 6 5).idx ≠ 6 := by
  decide
/-- CheckBranchesOnEightBits, to OUTPUT. -/
theorem witness_check_to_output :
    rstNow (serial .check 8 2) = false ∧ (serial .check 8 2).fsm = .check ∧
    (serial .check 8 2).pend.toNat % 2 = 0 ∧ 8 ≤ (serial .check 8 2).pend.toNat := by decide
/-- FillPlacesCodeBelowBufferedBits. -/
theorem witness_fill :
    (serial .fill 6 5).idx.toNat ≤ 5 ∧ rstNow (serial .fill 6 5) = false ∧ (serial .fill 6 5).fsm = .fill ∧
    (serial .fill 6 5).pend.toNat % 2 = 0 ∧ (serial .fill 6 5).pend.toNat ≤ 6 ∧ AccClear (serial .fill 6 5) :=
  ⟨by decide, rfl, rfl, by decide, by decide, fun _ _ => BitVec.getLsbD_zero⟩
/-- OutputSendsTopByte. -/
theorem witness_output :
    rstNow (serial .output 8 2) = false ∧ (serial .output 8 2).fsm = .output ∧
    (serial .output 8 2).pend.toNat % 2 = 0 ∧ 8 ≤ (serial .output 8 2).pend.toNat ∧ (serial .output 8 2).idx ≠ 6 := by
  decide
/-- LastOutputSendsBothBytes. -/
theorem witness_last_output :
    rstNow (serial .output 16 6) = false ∧ (serial .output 16 6).fsm = .output ∧ (serial .output 16 6).pend = 16 ∧
    (serial .output 16 6).idx = 6 := by decide
/-- DonePulsesLatchOnce. -/
theorem witness_done :
    rstNow (serial .done 0 6) = false ∧ (serial .done 0 6).fsm = .done ∧ (serial .done 0 6).pend.toNat % 2 = 0 := by
  decide
/-- StuckConfigurationsHaveNoStep, odd pend, in IDLE and in a serializer state. -/
theorem witness_stuck_odd :
    rstNow (serial .idle 1 0) = false ∧ (serial .idle 1 0).pend.toNat % 2 = 1 ∧
    rstNow (serial .init 31 0) = false ∧ (serial .init 31 0).pend.toNat % 2 = 1 := by decide
/-- StuckConfigurationsHaveNoStep, CHECK. -/
theorem witness_stuck_check :
    rstNow (serial .check 6 6) = false ∧ (serial .check 6 6).fsm = .check ∧
    (serial .check 6 6).pend.toNat % 2 = 0 ∧ (serial .check 6 6).pend.toNat < 8 ∧ (serial .check 6 6).idx = 6 := by
  decide
/-- StuckConfigurationsHaveNoStep, FILL. -/
theorem witness_stuck_fill :
    rstNow (serial .fill 8 5) = false ∧ (serial .fill 8 5).fsm = .fill ∧ (serial .fill 8 5).pend.toNat % 2 = 0 ∧
    (6 < (serial .fill 8 5).pend.toNat ∨ 5 < (serial .fill 6 6).idx.toNat) := by decide
/-- StuckConfigurationsHaveNoStep, OUTPUT. -/
theorem witness_stuck_output :
    rstNow (serial .output 6 1) = false ∧ (serial .output 6 1).fsm = .output ∧
    (serial .output 6 1).pend.toNat % 2 = 0 ∧ (serial .output 6 1).pend.toNat < 8 := by decide
/-- StuckConfigurationsHaveNoStep, the final byte. -/
theorem witness_stuck_last :
    rstNow (serial .output 14 6) = false ∧ (serial .output 14 6).fsm = .output ∧
    (serial .output 14 6).pend.toNat % 2 = 0 ∧ 8 ≤ (serial .output 14 6).pend.toNat ∧
    (serial .output 14 6).idx = 6 ∧ (serial .output 14 6).pend ≠ 16 := by decide

/-- A COMMIT at the port and a word behind it. -/
def committing : State := { State.reset with cmdIn := [some 0x80, some 0x15] }

/-- CommitEmitsFrameThenOnePulse, CommitTakesTwentyEightSteps and CommitShowsEverySlot. -/
theorem witness_commit_run :
    committing.fsm = .idle ∧ committing.pend.toNat % 2 = 0 ∧ committing.cmdIn = some 0x80 :: [some 0x15] ∧
    noResetFor 29 committing ∧ committing.cfg.Admissible ∧ committing.cfg.txMsbFirst = true :=
  ⟨rfl, rfl, rfl, fun _ _ => rfl, by decide, rfl⟩
/-- ReversedWireOrderMirrorsEachByte. -/
theorem witness_commit_reversed :
    let s := { committing with cfg := { Config.default with txMsbFirst := false } }
    s.fsm = .idle ∧ s.pend.toNat % 2 = 0 ∧ s.cmdIn = some 0x80 :: [some 0x15] ∧ noResetFor 29 s ∧ s.cfg.Admissible ∧
    s.cfg.txMsbFirst = false ∧ 59 < 60 :=
  ⟨rfl, rfl, rfl, fun _ _ => rfl, by decide, rfl, by decide⟩
/-- CommitTakesTwentyEightSteps, both ends of the range. -/
theorem witness_commit_step_count : 1 ≤ 1 ∧ 1 ≤ 29 ∧ 1 ≤ 29 ∧ 29 ≤ 29 := by decide
/-- SerializerControlIgnoresData. -/
theorem witness_same_control :
    (serial .fill 2 3).fsm ≠ .idle ∧
    let u := { serial .fill 2 3 with acc := 0xC000, hv := true }
    u.fsm = (serial .fill 2 3).fsm ∧ u.pend = (serial .fill 2 3).pend ∧ u.idx = (serial .fill 2 3).idx ∧
    u.rstIn = (serial .fill 2 3).rstIn ∧ u.cmdIn = (serial .fill 2 3).cmdIn ∧ ∃ t, step (serial .fill 2 3) = .next t :=
  ⟨by decide, rfl, rfl, rfl, rfl, rfl, _, rfl⟩
/-- ErrorRecordBlocksNothing, EventsBelongToTheirFsmState and LatchHighCyclesIsUnobservable. -/
theorem witness_step_next : ∃ t, step State.reset = .next t := ⟨_, rfl⟩
/-- OnePositionChangesOnlyItsFrameBits, both sides of position 6. -/
theorem witness_position_bits : (1 ≤ 6 ∧ 6 ≤ 6) ∧ 49 < 10 * 6 - 10 ∧ 10 * 6 ≤ 60 := by decide
/-- LinesChangeOnlyByTheirCommand, hv. -/
theorem witness_hv_changes :
    rstNow (offered 0x91) = false ∧ ∃ t, step (offered 0x91) = .next t ∧ t.hv ≠ (offered 0x91).hv :=
  ⟨rfl, _, rfl, by decide⟩
/-- LinesChangeOnlyByTheirCommand, lamp. -/
theorem witness_lamp_changes :
    rstNow (offered 0xA1) = false ∧ ∃ t, step (offered 0xA1) = .next t ∧ t.lamp ≠ (offered 0xA1).lamp :=
  ⟨rfl, _, rfl, by decide⟩
/-- ReservedWordIsRejected. -/
theorem witness_reserved :
    rstNow (offered 0xFF) = false ∧ (offered 0xFF).fsm = .idle ∧ (offered 0xFF).pend.toNat % 2 = 0 ∧
    (offered 0xFF).cmdIn = some 0xFF :: [] ∧ ∀ r : Row, r.selects 0xFF = false :=
  ⟨rfl, rfl, rfl, rfl, fun r => by cases r <;> decide⟩
/-- ErrorRecordKeepsFirstCause, err set by this step. -/
theorem witness_err_set :
    rstNow (offered 0x2B) = false ∧ ∃ t, step (offered 0x2B) = .next t ∧ (offered 0x2B).err = false ∧ t.err = true :=
  ⟨rfl, _, rfl, rfl, rfl⟩
/-- ErrorRecordKeepsFirstCause, err set before. -/
theorem witness_err_kept :
    ∃ t, step { serial .check 8 2 with err := true, ecause := 1 } = .next t ∧
      ({ serial .check 8 2 with err := true, ecause := 1 } : State).err = true := ⟨_, rfl, rfl⟩
/-- LatchLineStaysLow. -/
theorem witness_latch_low : (serial .done 0 6).latch = false ∧ ∃ t, step (serial .done 0 6) = .next t :=
  ⟨rfl, _, rfl⟩
/-- DisplayChangesOnlyInDone, the display. -/
theorem witness_display_changes :
    ∃ t, step { serial .done 0 6 with sr := 1, vis := 0 } = .next t ∧ t.vis ≠ 0 := ⟨_, rfl, by decide⟩
/-- DisplayChangesOnlyInDone, the chain. -/
theorem witness_chain_moves :
    ∃ t, step { serial .output 8 2 with acc := 0xFF00, sr := 0 } = .next t ∧ t.sr ≠ 0 := ⟨_, rfl, by decide⟩
/-- EveryStepKeepsInvariant and InvariantStatesAreNeverStuck: a state of the invariant inside a commit, with a step
out of it. -/
theorem witness_invariant :
    StateInv { serial .fill 2 3 with acc := 0xC000, sr := 0 } ∧
    ∃ t, step { serial .fill 2 3 with acc := 0xC000, sr := 0 } = .next t := by
  refine ⟨⟨by decide, fun k => ⟨10, by revert k; decide⟩, rfl, by decide, ?_, by decide, by decide⟩, _, rfl⟩
  intro i hi
  have hi : i < 14 := by
    have h2 : ({ serial .fill 2 3 with acc := 0xC000, sr := 0 } : State).pend.toNat = 2 := rfl
    omega
  show (0xC000#16).getLsbD i = false
  interval_cases i <;> decide
/-- LitTubeClearsOneStreamBit. -/
theorem witness_lit_tube : (1 ≤ 6 ∧ 6 ≤ 6) ∧ 9 < 10 := by decide
/-- WithoutCommitDisplayHolds. -/
theorem witness_no_commit_queued :
    (offered 0x17).fsm = .idle ∧ (∀ w, some w ∈ (offered 0x17).cmdIn → readWord w ≠ .ok .commit) ∧
    ∃ t, Host.Core.run Sys2Proof.core 1 (offered 0x17) = .next t := by
  refine ⟨rfl, fun w hw => ?_, _, rfl⟩
  have hw : w = 0x17 := by simpa [offered] using hw
  subst hw
  have hd : readWord 0x17 = .ok (.setdigit 1 7) := rfl
  rw [hd]
  simp

end Sys2Proof.Tests
end

section
/-! SUPPORT. What the reset state holds (rule R27): its slots and its three lines, and the obligation about them. -/

namespace Sys2Proof.Machine

@[simp] theorem State.reset_slot : State.reset.slot = Vector.replicate 6 0x3FF := rfl
@[simp] theorem State.reset_latch : State.reset.latch = false := rfl
@[simp] theorem State.reset_hv : State.reset.hv = false := rfl
@[simp] theorem State.reset_lamp : State.reset.lamp = false := rfl

/-- Settles O13: a slot of the reset state is an entry of a vector of blank codes, and the lines are stated per field. -/
theorem resetBlanksSlotsAndLowersLines : Obligations.ResetBlanksSlotsAndLowersLines := by
  refine ⟨fun k => ?slots, State.reset_latch, State.reset_hv, State.reset_lamp⟩
  case slots => simp only [State.reset_slot, Fin.getElem_fin, Vector.getElem_replicate]

end Sys2Proof.Machine
end

section
/-! SUPPORT. The digit-code table bit by bit (rule R47): the code of a digit and the code of blank, and the obligation
about them. -/

namespace Sys2Proof.Machine

/-- The table entry of a digit 0..9 is the complement of its cathode's bit: the mask `0x3FF` is all of a code's width. -/
theorem rom_of_lt {cfg : Config} {v : Digit} (h : v.val < 10) :
    rom cfg v = ~~~BitVec.twoPow 10 (cfg.cathode[v.val]'h).val :=
  (dif_pos h).trans BitVec.allOnes_and

theorem rom_of_not_lt {cfg : Config} {v : Digit} (h : ¬v.val < 10) : rom cfg v = 0x3FF := dif_neg h

/-- Reading one bit of a digit's code: low at the digit's cathode, high at the nine others (active-low, rule R47). -/
theorem getLsbD_rom_of_lt {cfg : Config} {v : Digit} (h : v.val < 10) {i : Nat} (hi : i < 10) :
    (rom cfg v).getLsbD i = decide (i ≠ (cfg.cathode[v.val]'h).val) := by
  rw [rom_of_lt h, BitVec.getLsbD_not, BitVec.getLsbD_twoPow]
  simp [hi, eq_comm (a := i)]

/-- Settles O15: a digit's code is read bit by bit, and blank (10) is outside the digits that clear a bit. -/
theorem digitCodeClearsItsCathodeBit : Obligations.DigitCodeClearsItsCathodeBit := by
  refine fun cfg => ⟨fun v i hi => ?digit, ?blank⟩
  case digit => exact getLsbD_rom_of_lt v.isLt hi
  case blank => exact rom_of_not_lt (by decide)

end Sys2Proof.Machine
end

section
/-! SUPPORT. SETDIGIT with valid operands (rule R65): reading a slot after a slot write, the state it answers, and the
obligation about it. -/

namespace Sys2Proof.Machine

section
variable {s : State}

/-- Reading the written slot back. -/
@[simp] theorem writeSlot_slot_same (k : Fin 6) (c : Code) : (writeSlot k c s).slot[k.val] = c :=
  Vector.getElem_set_self k.isLt

/-- A slot write keeps the five other slots (rule R32). -/
theorem writeSlot_slot_of_ne {j k : Fin 6} (c : Code) (h : j ≠ k) : (writeSlot k c s).slot[j] = s.slot[j] :=
  Vector.getElem_set_ne k.isLt j.isLt (Fin.val_ne_of_ne h.symm)

/-- A slot write changes the slots and no other field. -/
theorem writeSlot_frame (k : Fin 6) (c : Code) : writeSlot k c s = { s with slot := (writeSlot k c s).slot } := rfl

/-- With both operands in range, SETDIGIT is one slot write (rules R50, R65). -/
theorem exec_setdigit_of_valid {p : BitVec 3} {v : BitVec 4} (hp : 1 ≤ p.toNat ∧ p.toNat ≤ 6) (hv : v.toNat ≤ 10) :
    exec (.setdigit p v) s = .next (writeSlot ⟨6 - p.toNat, by omega⟩ (rom s.cfg ⟨v.toNat, by omega⟩) s) := by
  simp only [exec, execSetdigit, foldIndex_eq_some hp, encodeDigit_eq_some hv]

end

/-- Settles O19: the answer is one slot write, read back at its slot and at the five others. -/
theorem setdigitWritesExactlyItsSlot : Obligations.SetdigitWritesExactlyItsSlot := by
  intro s p v hp hv _
  refine ⟨_, exec_setdigit_of_valid hp hv, writeSlot_frame _ _, ?written, fun k hk => ?others⟩
  case written => exact writeSlot_slot_same _ _
  case others => exact writeSlot_slot_of_ne _ fun h => hk (congrArg Fin.val h)

end Sys2Proof.Machine
end

section
/-! SUPPORT. FILL and INIT (rules R77, R79): the accumulator of FILL bit by bit, the two counts, and the obligations about
the two serializer states. -/

namespace Sys2Proof.Machine

section
variable {s : State}

/-- A bit of the accumulator that FILL leaves is the old bit or the bit of the code that lands on it: the code moves up by at
most 6, so its 10 bits all stay within the 16. -/
theorem afterFill_acc_getLsbD (h : s.idx.toNat < 6) (i : Nat) :
    (afterFill s h).acc.getLsbD i =
      (s.acc.getLsbD i || !decide (i < 6 - s.pend.toNat) && s.slot[s.idx.toNat].getLsbD (i - (6 - s.pend.toNat))) := by
  rw [afterFill_acc, BitVec.getLsbD_or, BitVec.getLsbD_shiftLeft, BitVec.getLsbD_setWidth]
  by_cases hi : i < 16
  · have hj : i - (6 - s.pend.toNat) < 16 := by omega
    simp [hi, hj]
  · have hj : 10 ≤ i - (6 - s.pend.toNat) := by omega
    simp [hi, BitVec.getLsbD_of_ge _ _ hj]

/-- The ten bits below the buffered ones were zero (rule R90), so the OR leaves the code itself there. -/
theorem afterFill_acc_code (h : s.idx.toNat < 6) (hp : s.pend.toNat ≤ 6) (hc : AccClear s) {j : Nat} (hj : j < 10) :
    (afterFill s h).acc.getLsbD (6 - s.pend.toNat + j) = s.slot[s.idx.toNat].getLsbD j := by
  have h0 : s.acc.getLsbD (6 - s.pend.toNat + j) = false := hc _ (by omega)
  rw [afterFill_acc_getLsbD, h0]
  simp

/-- The code ends below the buffered bits, which keep their values. -/
theorem afterFill_acc_above (h : s.idx.toNat < 6) (hp : s.pend.toNat ≤ 6) {i : Nat} (hi : 16 ≤ i + s.pend.toNat) :
    (afterFill s h).acc.getLsbD i = s.acc.getLsbD i := by
  have hj : 10 ≤ i - (6 - s.pend.toNat) := by omega
  rw [afterFill_acc_getLsbD, BitVec.getLsbD_of_ge _ _ hj, Bool.and_false, Bool.or_false]

/-- Below the code the accumulator stays clear (rule R90). -/
theorem afterFill_acc_below (h : s.idx.toNat < 6) (hc : AccClear s) {i : Nat} (hi : i + s.pend.toNat < 6) :
    (afterFill s h).acc.getLsbD i = false := by
  have h0 : s.acc.getLsbD i = false := hc i (by omega)
  have hlow : i < 6 - s.pend.toNat := by omega
  rw [afterFill_acc_getLsbD, h0]
  simp [hlow]

/-- FILL's `require` keeps `pend` within its 5 bits. -/
theorem afterFill_pend_toNat (h : s.idx.toNat < 6) (hp : s.pend.toNat ≤ 6) :
    (afterFill s h).pend.toNat = s.pend.toNat + 10 :=
  BitVec.toNat_add_of_lt (y := 10#5) (by simp; omega)

/-- FILL's `require` keeps `idx` within its 3 bits. -/
theorem afterFill_idx_toNat (h : s.idx.toNat < 6) : (afterFill s h).idx.toNat = s.idx.toNat + 1 :=
  BitVec.toNat_add_of_lt (y := 1#3) (by simp; omega)

/-- FILL changes the accumulator, the two counts and the FSM state, and no other field. -/
theorem afterFill_frame (h : s.idx.toNat < 6) :
    afterFill s h = { s with acc := (afterFill s h).acc, pend := (afterFill s h).pend, idx := (afterFill s h).idx,
                             fsm := .check } := rfl

end

/-- Settles O28: the step is one FILL, and its accumulator is read in, above and below the field of the new code. -/
theorem fillPlacesCodeBelowBufferedBits : Obligations.FillPlacesCodeBelowBufferedBits := by
  intro s hi hr hf he hp hc
  have h : (tick s).idx.toNat < 6 := Nat.lt_succ_of_le hi
  refine ⟨afterFill (tick s) h, step_of_case (.fill hr hf he h hp rfl), afterFill_frame h, afterFill_pend_toNat h hp,
    afterFill_idx_toNat h, fun j hj => ?code, fun i hi => ?above, fun i hi => ?below⟩
  case code => exact afterFill_acc_code h hp hc hj
  case above => exact afterFill_acc_above h hp hi
  case below => exact afterFill_acc_below h hc hi

/-- Settles O26: the step is one INIT, whose next state names every field it changes. -/
theorem initClearsAndCountsPadding : Obligations.InitClearsAndCountsPadding := by
  intro s hr hf he
  have hinit : StepCase s (afterInit (tick s)) := .init hr hf he rfl
  exact step_of_case hinit

end Sys2Proof.Machine
end

section
/-! SUPPORT. The rows of the opcode table and the two decoders (rules R55, R56): which row selects a word, what the
row-level decoder answers on it, and the operand checks that turn the row-level decoder into the total one. The
obligations about the command word are settled here. -/

namespace Sys2Proof

/-! ## Rows -/

theorem Row.selects_iff {r : Row} {w : Byte} : r.selects w = true ↔ w &&& r.mask = r.pattern := beq_iff_eq

/-- Two rows agree on the bits that both fix only if they are the same row (rule R55). -/
theorem Row.eq_of_patterns_agree : ∀ {r q : Row}, r.pattern &&& q.mask = q.pattern &&& r.mask → r = q := by
  intro r q
  cases r <;> cases q <;> decide

/-- Settles O2: a word that both rows select carries both patterns, so they agree on the bits that both rows fix. -/
theorem opcodeRowsNeverOverlap : Obligations.OpcodeRowsNeverOverlap := by
  intro w r q hr hq
  apply Row.eq_of_patterns_agree
  rw [← Row.selects_iff.mp hr, ← Row.selects_iff.mp hq, BitVec.and_assoc, BitVec.and_assoc,
    BitVec.and_comm r.mask]

/-- The SETDIGIT row fixes bit 7 alone. -/
theorem Row.selects_setdigit (w : Byte) : Row.setdigit.selects w = !w[7] := by
  have h : w &&& Row.setdigit.mask = if w[7] then 0x80#8 else 0x00#8 := BitVec.and_twoPow w 7
  rw [Row.selects, h]
  cases w[7] <;> rfl

/-- The COMMIT row fixes the whole word. -/
theorem Row.selects_commit (w : Byte) : Row.commit.selects w = (w == 0x80) := by
  have h : w &&& Row.commit.mask = w := BitVec.and_allOnes
  rw [Row.selects, h]
  rfl

/-! ## The row-level decoder -/

/-- The row that selects a word is the row that reads it, since no other row selects it. -/
theorem readWord_of_selects {w : Byte} {r : Row} (h : r.selects w = true) : readWord w = .ok (r.read w) := by
  unfold readWord
  split
  · next q hq => rw [opcodeRowsNeverOverlap w q r (List.find?_some (p := fun q : Row => q.selects w) hq) h]
  · next hq => exact absurd h (List.find?_eq_none.mp hq r (by cases r <;> decide))

/-- A word that no row selects is reserved (rule R124). -/
theorem readWord_of_selects_none {w : Byte} (h : ∀ r : Row, r.selects w = false) :
    readWord w = .error .reservedCommand := by
  have hnone : Row.all.find? (·.selects w) = none := List.find?_eq_none.mpr fun r _ => by simp [h r]
  rw [readWord, hnone]

/-- What the row-level decoder reads, it reads by a row that selects the word. -/
theorem selects_of_readWord {w : Byte} {i : Instr} (h : readWord w = .ok i) :
    ∃ r : Row, r.selects w = true ∧ r.read w = i := by
  unfold readWord at h
  split at h
  · next r hr => exact ⟨r, List.find?_some (p := fun q : Row => q.selects w) hr, Except.ok.inj h⟩
  · cases h

/-- The encoding of an operation is read back, whatever its operands (rules R55, R60). -/
theorem readWord_encode (i : Instr) : readWord (encode i) = .ok i := by
  have hrow : Laws.RowMatch.Statement i := by
    cases i with
    | setdigit p v => exact Laws.RowMatch.setdigit p v
    | commit => exact Laws.RowMatch.commit
    | sethv e => exact Laws.RowMatch.sethv e
    | setlamp e => exact Laws.RowMatch.setlamp e
  obtain ⟨hsel, hread⟩ := hrow
  rw [readWord_of_selects hsel, hread]

/-- Bit 0 and the seven bits above it make up the word. -/
theorem and_xFE_or_bit0 (w : Byte) : (w &&& (0xFE : Byte)) ||| (BitVec.ofBool w[0]).setWidth 8 = w := by
  revert w
  decide

/-- The two operand fields of SETDIGIT make up the word but for bit 7. -/
theorem operandFields_or (w : Byte) (h : w[7] = false) :
    ((w.extractLsb' 4 3).setWidth 8 <<< 4) ||| (w.extractLsb' 0 4).setWidth 8 = w := by
  revert w
  decide

/-- A selected word is the encoding of what its row reads (rules R55, R60). -/
theorem encode_read {w : Byte} {r : Row} (h : r.selects w = true) : encode (r.read w) = w := by
  cases r with
  | setdigit => exact operandFields_or w (by simpa [Row.selects_setdigit] using h)
  | commit => exact (eq_of_beq (Row.selects_commit w ▸ h)).symm
  | sethv =>
    have hw : w &&& 0xFE = 0x90 := Row.selects_iff.mp h
    rw [Row.read, encode, ← hw, and_xFE_or_bit0]
  | setlamp =>
    have hw : w &&& 0xFE = 0xA0 := Row.selects_iff.mp h
    rw [Row.read, encode, ← hw, and_xFE_or_bit0]

/-- Each word has one reading at most, and the reading encodes to the word. -/
theorem encode_of_readWord {w : Byte} {i : Instr} (h : readWord w = .ok i) : encode i = w := by
  obtain ⟨r, hsel, rfl⟩ := selects_of_readWord h
  exact encode_read hsel

/-! ## The total decoder -/

/-- The operand checks of rule R56, on an operation read by its row: position first, then value. -/
def checkOperands : Instr → Except Cause Instr
  | .setdigit p v =>
    if p = 0 ∨ p = 7 then .error .badPosition
    else if 10 < v.toNat then .error .badValue
    else .ok (.setdigit p v)
  | .commit => .ok .commit
  | .sethv e => .ok (.sethv e)
  | .setlamp e => .ok (.setlamp e)

/-- "A word selects the first row whose `(word & mask) == match`" (rule R55), row by row. -/
theorem readWord_eq_ite (w : Byte) :
    readWord w =
      if w[7] = false then .ok (Row.setdigit.read w)
      else if w = 0x80 then .ok .commit
      else if w &&& 0xFE = 0x90 then .ok (.sethv w[0])
      else if w &&& 0xFE = 0xA0 then .ok (.setlamp w[0])
      else .error .reservedCommand := by
  split_ifs with h7 hcommit hsethv hsetlamp
  · exact readWord_of_selects (by simp [Row.selects_setdigit, h7])
  · exact readWord_of_selects (r := .commit) (by simp [Row.selects_commit, hcommit])
  · exact readWord_of_selects (r := .sethv) (Row.selects_iff.mpr hsethv)
  · exact readWord_of_selects (r := .setlamp) (Row.selects_iff.mpr hsetlamp)
  · refine readWord_of_selects_none fun r => Bool.eq_false_iff.mpr fun hsel => ?_
    cases r with
    | setdigit => exact h7 (by simpa [Row.selects_setdigit] using hsel)
    | commit => exact hcommit (eq_of_beq (Row.selects_commit w ▸ hsel))
    | sethv => exact hsethv (Row.selects_iff.mp hsel)
    | setlamp => exact hsetlamp (Row.selects_iff.mp hsel)

/-- The total decoder is the row-level decoder followed by the operand checks (rule R56). -/
theorem decode_eq_bind (w : Byte) : decode w = (readWord w).bind checkOperands := by
  rw [readWord_eq_ite, decode]
  split_ifs <;> rfl

theorem checkOperands_badPosition {p : BitVec 3} (v : BitVec 4) (h : p = 0 ∨ p = 7) :
    checkOperands (.setdigit p v) = .error .badPosition := if_pos h

theorem checkOperands_badValue {p : BitVec 3} {v : BitVec 4} (hp : ¬(p = 0 ∨ p = 7)) (hv : 10 < v.toNat) :
    checkOperands (.setdigit p v) = .error .badValue := by
  rw [checkOperands, if_neg hp, if_pos hv]

theorem checkOperands_valid {p : BitVec 3} {v : BitVec 4} (hp : ¬(p = 0 ∨ p = 7)) (hv : ¬10 < v.toNat) :
    checkOperands (.setdigit p v) = .ok (.setdigit p v) := by
  rw [checkOperands, if_neg hp, if_neg hv]

/-- A position is in 1..6 unless it is 0 or 7 (rules R50, R56). -/
theorem positionInRange_iff {p : BitVec 3} : (1 ≤ p.toNat ∧ p.toNat ≤ 6) ↔ ¬(p = 0 ∨ p = 7) := by
  revert p
  decide

theorem positionOk_iff {p : BitVec 3} : positionOk p = true ↔ 1 ≤ p.toNat ∧ p.toNat ≤ 6 := by
  simp [positionOk]

theorem valueOk_iff {v : BitVec 4} : valueOk v = true ↔ v.toNat ≤ 10 := by simp [valueOk]

/-- The checks pass exactly a well-formed operation, and unchanged. -/
theorem checkOperands_eq_ok_iff {i j : Instr} : checkOperands i = .ok j ↔ i = j ∧ i.wellFormed = true := by
  cases i with
  | setdigit p v =>
    simp only [Instr.wellFormed, Bool.and_eq_true, positionOk_iff, positionInRange_iff, valueOk_iff]
    by_cases hp : p = 0 ∨ p = 7
    · simp only [checkOperands_badPosition v hp, hp, not_true, false_and, and_false, reduceCtorEq]
    · by_cases hv : 10 < v.toNat
      · simp [checkOperands_badValue hp hv, Nat.not_le.mpr hv]
      · simp only [checkOperands_valid hp hv, hp, Nat.le_of_not_lt hv, Except.ok.injEq, not_false_iff,
          and_self, and_true]
  | commit => simp [checkOperands, Instr.wellFormed]
  | sethv e => simp [checkOperands, Instr.wellFormed]
  | setlamp e => simp [checkOperands, Instr.wellFormed]

/-- On an encoded operation the total decoder is the operand checks alone. -/
theorem decode_encode (i : Instr) : decode (encode i) = checkOperands i := by
  rw [decode_eq_bind, readWord_encode]
  rfl

/-- Settles O4: the encoding is read back by its own row, and the operand checks decide what the total decoder adds. -/
theorem decodeAfterEncodeIsIdentity : Obligations.DecodeAfterEncodeIsIdentity := by
  refine fun i => ⟨readWord_encode i, ?wellFormed, ?badPosition, ?badValue⟩
  case wellFormed =>
    intro hwf
    rw [decode_encode]
    exact checkOperands_eq_ok_iff.mpr ⟨rfl, hwf⟩
  case badPosition =>
    rintro p v rfl hp
    have hbad : p = 0 ∨ p = 7 := by
      by_contra h
      exact Bool.eq_false_iff.mp hp (positionOk_iff.mpr (positionInRange_iff.mpr h))
    rw [decode_encode, checkOperands_badPosition v hbad]
  case badValue =>
    rintro p v rfl hp hv
    have hgood : ¬(p = 0 ∨ p = 7) := positionInRange_iff.mp (positionOk_iff.mp hp)
    have hbad : 10 < v.toNat := Nat.lt_of_not_le fun h => Bool.eq_false_iff.mp hv (valueOk_iff.mpr h)
    rw [decode_encode, checkOperands_badValue hgood hbad]

/-- Settles O5: a decoded word was read by its row, and the operand checks passed what was read. -/
theorem encodeAfterDecodeIsIdentity : Obligations.EncodeAfterDecodeIsIdentity := by
  intro w i h
  rw [decode_eq_bind] at h
  cases hread : readWord w with
  | error c => simp [hread, Except.bind] at h
  | ok j =>
    rw [hread] at h
    obtain ⟨rfl, hwf⟩ := checkOperands_eq_ok_iff.mp h
    exact ⟨encode_of_readWord hread, hwf⟩

/-! ## Fixed words and counts -/

/-- Settles O1: twelve closed words, each decoded by evaluation. -/
theorem sampleWordsDecode : Obligations.SampleWordsDecode :=
  ⟨rfl, rfl, rfl, rfl, rfl, rfl, rfl, rfl, rfl, rfl, rfl, rfl⟩

/-- Settles O3: a count over the 256 closed words. -/
theorem decodeCountsOfAllWords : Obligations.DecodeCountsOfAllWords := by
  unfold Obligations.DecodeCountsOfAllWords
  decide +kernel

/-- Settles O6: the two SETDIGIT fields do not overlap, and `e` is bit 0 below a pattern that has it clear. -/
theorem encodedWordsMatchTheirColumn : Obligations.EncodedWordsMatchTheirColumn := by
  unfold Obligations.EncodedWordsMatchTheirColumn
  decide

end Sys2Proof
end

section
/-! SUPPORT. The command port in IDLE (rules R38, R76): what an IDLE step answers, everything it can do in terms of the
word at the port, and what a step outside IDLE leaves alone. The obligations about the port are settled here. -/

namespace Sys2Proof.Machine

section
variable {s t : State}

/-! ## IDLE -/

/-- In IDLE with a word at the port, the step runs that word (rule R76). -/
theorem step_idle_cons {w : Byte} {rest : List (Option Byte)} (hr : rstNow s = false) (hf : s.fsm = .idle)
    (he : s.pend.toNat % 2 = 0) (hc : s.cmdIn = some w :: rest) :
    step s = runWord w { s with cmdIn := rest, rstIn := s.rstIn.tail } := by
  have hconsume : consume s = { s with cmdIn := rest, rstIn := s.rstIn.tail } := by rw [consume, hc, List.tail_cons]
  simp only [step_of_even hr he, visitState_idle hf, stepIdle, cmdNow_of_cons hc, hconsume]

theorem runWord_of_ok {w : Byte} {i : Instr} (h : readWord w = .ok i) : runWord w s = exec i s := by
  simp only [runWord, h]

theorem runWord_of_error {w : Byte} {c : Cause} (h : readWord w = .error c) :
    runWord w s = .next (reject c s) := by
  simp only [runWord, h]

theorem exec_setdigit_badPosition {p : BitVec 3} (v : BitVec 4) (h : p = 0 ∨ p = 7) :
    exec (.setdigit p v) s = .next (reject .badPosition s) := by
  simp only [exec, execSetdigit, foldIndex_eq_none fun hp => positionInRange_iff.mp hp h]

theorem exec_setdigit_badValue {p : BitVec 3} {v : BitVec 4} (hp : ¬(p = 0 ∨ p = 7)) (hv : 10 < v.toNat) :
    exec (.setdigit p v) s = .next (reject .badValue s) := by
  simp only [exec, execSetdigit, foldIndex_eq_some (positionInRange_iff.mpr hp),
    encodeDigit_eq_none (Nat.not_le.mpr hv)]

/-- The meaning of an operation rejects what the operand checks reject, with the same cause (rules R56, R66). -/
theorem exec_of_checkOperands (i : Instr) :
    exec i s = match checkOperands i with
      | .ok j => exec j s
      | .error c => .next (reject c s) := by
  cases i with
  | setdigit p v =>
    by_cases hp : p = 0 ∨ p = 7
    · rw [exec_setdigit_badPosition v hp, checkOperands_badPosition v hp]
    · by_cases hv : 10 < v.toNat
      · rw [exec_setdigit_badValue hp hv, checkOperands_badValue hp hv]
      · rw [checkOperands_valid hp hv]
  | commit => rfl
  | sethv e => rfl
  | setlamp e => rfl

/-- Everything an IDLE step can do, in terms of the word at the port. -/
inductive IdleCase (s t : State) : Prop where
  | quiet (ht : t = consume s)
  | rejected (c : Cause) (ht : t = reject c (consume s))
  | slotWritten (w : Byte) (p : BitVec 3) (v : BitVec 4) (k : Fin 6) (c : Code) (hc : cmdNow s = some w)
      (hw : readWord w = .ok (.setdigit p v)) (hk : foldIndex p = some k) (hv : encodeDigit s.cfg v = some c)
      (ht : t = writeSlot k c (consume s))
  | committed (w : Byte) (hc : cmdNow s = some w) (hw : readWord w = .ok .commit) (ht : t = goto .init (consume s))
  | hvDriven (w : Byte) (e : Bool) (hc : cmdNow s = some w) (hw : readWord w = .ok (.sethv e))
      (ht : t = driveHv e (consume s))
  | lampDriven (w : Byte) (e : Bool) (hc : cmdNow s = some w) (hw : readWord w = .ok (.setlamp e))
      (ht : t = driveLamp e (consume s))

/-- An accepted operation is one of the cases of an IDLE step. -/
theorem idleCase_of_exec {w : Byte} {i : Instr} (hc : cmdNow s = some w) (hw : readWord w = .ok i)
    (ht : exec i (consume s) = .next t) : IdleCase s t := by
  rcases exec_cases ht with ⟨p, v, k, c, rfl, hk, hv, ht⟩ | ⟨p, v, -, -, ht⟩ | ⟨p, v, k, -, -, -, ht⟩ | ⟨rfl, rfl⟩ |
    ⟨e, rfl, rfl⟩ | ⟨e, rfl, rfl⟩
  · exact .slotWritten w p v k c hc hw hk hv ht
  · exact .rejected .badPosition ht
  · exact .rejected .badValue ht
  · exact .committed w hc hw rfl
  · exact .hvDriven w e hc hw rfl
  · exact .lampDriven w e hc hw rfl

/-! ## Outside IDLE -/

/-- What no serializer state and no latch pulse touches: slots, output lines, error record, parameters and the command
queue (rules R11, R18 to R20, R38). -/
structure SerializerFrame (s t : State) : Prop where
  slot : t.slot = s.slot
  hv : t.hv = s.hv
  lamp : t.lamp = s.lamp
  err : t.err = s.err
  ecause : t.ecause = s.ecause
  cfg : t.cfg = s.cfg
  cmdIn : t.cmdIn = s.cmdIn

theorem SerializerFrame.trans {r : State} (h : SerializerFrame r s) (g : SerializerFrame s t) :
    SerializerFrame r t where
  slot := g.slot.trans h.slot
  hv := g.hv.trans h.hv
  lamp := g.lamp.trans h.lamp
  err := g.err.trans h.err
  ecause := g.ecause.trans h.ecause
  cfg := g.cfg.trans h.cfg
  cmdIn := g.cmdIn.trans h.cmdIn

theorem serializerFrame_tick (s : State) : SerializerFrame s (tick s) := ⟨rfl, rfl, rfl, rfl, rfl, rfl, rfl⟩

theorem serializerFrame_goto (f : Fsm) (s : State) : SerializerFrame s (goto f s) :=
  ⟨rfl, rfl, rfl, rfl, rfl, rfl, rfl⟩

theorem serializerFrame_afterInit (s : State) : SerializerFrame s (afterInit s) :=
  ⟨rfl, rfl, rfl, rfl, rfl, rfl, rfl⟩

theorem serializerFrame_afterFill (s : State) (h : s.idx.toNat < 6) : SerializerFrame s (afterFill s h) :=
  ⟨rfl, rfl, rfl, rfl, rfl, rfl, rfl⟩

theorem serializerFrame_sendByte (s : State) : SerializerFrame s (sendByte s) := ⟨rfl, rfl, rfl, rfl, rfl, rfl, rfl⟩

theorem serializerFrame_latchPulse (s : State) : SerializerFrame s (latchDown (latchUp s)) :=
  ⟨rfl, rfl, rfl, rfl, rfl, rfl, rfl⟩

/-- A step without reset is an IDLE step or leaves alone what the serializer does not touch. -/
theorem idleCase_or_serializerFrame (hr : rstNow s = false) (h : step s = .next t) :
    (s.fsm = .idle ∧ IdleCase s t) ∨ (s.fsm ≠ .idle ∧ SerializerFrame s t) := by
  cases step_cases h with
  | reset hr' => rw [hr] at hr'; cases hr'
  | quiet _ hf _ _ ht => exact .inl ⟨hf, .quiet ht⟩
  | reserved _ hf _ w hc c hw ht => exact .inl ⟨hf, .rejected c ht⟩
  | accept _ hf _ w hc i hw ht => exact .inl ⟨hf, idleCase_of_exec hc hw ht⟩
  | init _ hf _ ht =>
    exact .inr ⟨by simp [hf], ht ▸ (serializerFrame_tick s).trans (serializerFrame_afterInit _)⟩
  | toFill _ hf _ _ _ ht =>
    exact .inr ⟨by simp [hf], ht ▸ (serializerFrame_tick s).trans (serializerFrame_goto _ _)⟩
  | toOutput _ hf _ _ ht =>
    exact .inr ⟨by simp [hf], ht ▸ (serializerFrame_tick s).trans (serializerFrame_goto _ _)⟩
  | fill _ hf _ hi _ ht =>
    exact .inr ⟨by simp [hf], ht ▸ (serializerFrame_tick s).trans (serializerFrame_afterFill _ hi)⟩
  | output _ hf _ _ _ ht =>
    exact .inr ⟨by simp [hf], ht ▸ ((serializerFrame_tick s).trans (serializerFrame_sendByte _)).trans
      (serializerFrame_goto _ _)⟩
  | last _ hf _ _ ht =>
    exact .inr ⟨by simp [hf], ht ▸ (((serializerFrame_tick s).trans (serializerFrame_sendByte _)).trans
      (serializerFrame_sendByte _)).trans (serializerFrame_goto _ _)⟩
  | done _ hf _ ht =>
    exact .inr ⟨by simp [hf], ht ▸ ((serializerFrame_tick s).trans (serializerFrame_latchPulse _)).trans
      (serializerFrame_goto _ _)⟩

theorem idleCase_of_step (hr : rstNow s = false) (hf : s.fsm = .idle) (h : step s = .next t) : IdleCase s t :=
  ((idleCase_or_serializerFrame hr h).resolve_right fun hs => hs.1 hf).2

theorem serializerFrame_of_step (hr : rstNow s = false) (hf : s.fsm ≠ .idle) (h : step s = .next t) :
    SerializerFrame s t :=
  ((idleCase_or_serializerFrame hr h).resolve_left fun hs => hf hs.1).2

theorem busy_iff : busy s = true ↔ s.fsm ≠ .idle := by simp [busy]

end

/-! ## The obligations about the port -/

/-- Settles O7: an accepted word runs its operation on the state that has consumed it. -/
theorem stepRunsDecodedInstruction : Obligations.StepRunsDecodedInstruction := by
  intro s w rest i hr hf he hc hw
  rw [step_idle_cons hr hf he hc, runWord_of_ok hw]

/-- Settles O8: the total decoder is the row-level one with the operand checks, which the meaning makes itself. -/
theorem stepAgreesWithTotalDecode : Obligations.StepAgreesWithTotalDecode := by
  intro s w rest hr hf he hc
  rw [step_idle_cons hr hf he hc, decode_eq_bind]
  cases hw : readWord w with
  | error c => exact runWord_of_error hw
  | ok i => exact (runWord_of_ok hw).trans (exec_of_checkOperands i)

/-- Settles O9: an IDLE step with nothing at the port. -/
theorem idleWithoutCommandChangesNothing : Obligations.IdleWithoutCommandChangesNothing := by
  intro s hr hf he hc
  have hquiet : StepCase s (consume s) := .quiet hr hf he hc rfl
  exact step_of_case hquiet

/-- Settles O43: no row reads the word, so the step rejects it as reserved. -/
theorem reservedWordIsRejected : Obligations.ReservedWordIsRejected := by
  intro s w rest hr hf he hc hsel
  rw [step_idle_cons hr hf he hc, runWord_of_error (readWord_of_selects_none hsel)]
  rfl

/-- Settles O10: outside IDLE a step leaves the command queue alone. -/
theorem commandWaitsWhileBusy : Obligations.CommandWaitsWhileBusy := by
  intro s t hr hb h
  have hqueue : t.cmdIn = s.cmdIn := (serializerFrame_of_step hr (busy_iff.mp hb) h).cmdIn
  exact ⟨hqueue, fun w hw => (cmdNow_congr hqueue).trans hw⟩

/-- Settles O12: reset is looked at before anything else. -/
theorem resetWinsInEveryStep : Obligations.ResetWinsInEveryStep := fun _ hr => step_reset hr

/-- Settles O14: the reset state is written out field by field. -/
theorem resetIsIdleAndClear : Obligations.ResetIsIdleAndClear := ⟨rfl, rfl, rfl, rfl, rfl, rfl, rfl, rfl⟩

/-- The state after `n` quiet IDLE steps, with `queue` left at the port. -/
def afterQuiet (n : Nat) (queue : List (Option Byte)) (s : State) : State :=
  { s with rstIn := s.rstIn.drop n, cmdIn := queue }

/-- One more quiet entry passes. -/
theorem step_afterQuiet {s : State} {n : Nat} {queue : List (Option Byte)} (hf : s.fsm = .idle)
    (he : s.pend.toNat % 2 = 0) (hr : rstNow (afterQuiet n (none :: queue) s) = false) :
    step (afterQuiet n (none :: queue) s) = .next (afterQuiet (n + 1) queue s) := by
  refine step_of_case (.quiet hr hf he rfl ?_)
  simp [afterQuiet, consume]

/-- Settles O11: by induction on the steps of the hold that have passed; each takes one quiet entry. -/
theorem holdIsSpentInIdle : Obligations.HoldIsSpentInIdle := by
  intro ms k n s rest hf he hc hno hn
  show Host.Core.run Sys2Proof.core n s = .next (afterQuiet n (List.replicate (ms * k - n) none ++ rest) s)
  induction n with
  | zero =>
    have hqueue : List.replicate (ms * k - 0) none ++ rest = s.cmdIn := hc.symm
    rw [run_zero, hqueue]
    rfl
  | succ n ih =>
    have hqueue : List.replicate (ms * k - n) none ++ rest =
        none :: (List.replicate (ms * k - (n + 1)) none ++ rest) := by
      rw [show ms * k - n = (ms * k - (n + 1)) + 1 by omega]
      rfl
    have hrun := ih (by omega)
    rw [hqueue] at hrun
    exact run_snoc hrun (step_afterQuiet hf he (hno.at (by omega) rfl))

end Sys2Proof.Machine
end

section
/-! SUPPORT. The invariant of the machine: each state operation keeps it under the condition that selects the operation,
hence every step does, and it gives every step what the step requires (rules R12, R17, R20, R90, R92). -/

namespace Sys2Proof.Machine

section
variable {s t : State}

/-! ## Comparisons on `pend` -/

theorem pend_lt_eight_iff : s.pend < 8 ↔ s.pend.toNat < 8 := Iff.rfl

theorem pend_eq_sixteen_iff : s.pend = 16 ↔ s.pend.toNat = 16 := BitVec.toNat_inj.symm

theorem idx_eq_six_iff : s.idx = 6 ↔ s.idx.toNat = 6 := BitVec.toNat_inj.symm

theorem sendByte_pend_toNat (hp : ¬s.pend < 8) : (sendByte s).pend.toNat = s.pend.toNat - 8 :=
  BitVec.toNat_sub_of_le (BitVec.not_lt.mp hp)

/-! ## The accumulator invariant -/

theorem accClear_of_acc_zero (h : s.acc = 0) : AccClear s := fun i _ => by simp [h]

theorem accClear_afterFill (h : s.idx.toNat < 6) (hp : s.pend.toNat ≤ 6) (hc : AccClear s) :
    AccClear (afterFill s h) := by
  intro i hi
  rw [afterFill_pend_toNat h hp] at hi
  exact afterFill_acc_below h hc (by omega)

/-- The shift brings in eight zeros below, and the count drops by eight. -/
theorem accClear_sendByte (hp : ¬s.pend < 8) (hc : AccClear s) : AccClear (sendByte s) := by
  intro i hi
  rw [sendByte_pend_toNat hp] at hi
  rw [pend_lt_eight_iff] at hp
  rw [sendByte_acc, BitVec.getLsbD_shiftLeft]
  by_cases h8 : i < 8
  · simp [h8]
  · rw [hc (i - 8) (by omega), Bool.and_false]

theorem accClear_goto (f : Fsm) (hc : AccClear s) : AccClear (goto f s) := hc

/-- With nothing buffered the accumulator is zero. -/
theorem acc_eq_zero_of_pend_zero (hc : AccClear s) (hp : s.pend = 0) : s.acc = 0 := by
  refine BitVec.eq_of_getLsbD_eq fun i hi => ?_
  rw [hc i (by simpa [hp] using hi)]
  simp

/-! ## The operations of IDLE -/

theorem StateInv.after_tick (h : StateInv s) : StateInv (tick s) := h.congr rfl rfl rfl rfl rfl rfl rfl rfl rfl rfl

theorem StateInv.after_consume (h : StateInv s) : StateInv (consume s) := h.congr rfl rfl rfl rfl rfl rfl rfl rfl rfl rfl

theorem StateInv.after_driveHv (h : StateInv s) (e : Bool) : StateInv (driveHv e s) :=
  h.congr rfl rfl rfl rfl rfl rfl rfl rfl rfl rfl

theorem StateInv.after_driveLamp (h : StateInv s) (e : Bool) : StateInv (driveLamp e s) :=
  h.congr rfl rfl rfl rfl rfl rfl rfl rfl rfl rfl

theorem Cause.code_ne_zero (c : Cause) : c.code ≠ 0 := by cases c <;> decide

/-- A reject sets `err` and leaves a cause that is not 0, the first one or its own (rule R20). -/
theorem StateInv.after_reject (h : StateInv s) (c : Cause) : StateInv (reject c s) where
  params := h.params
  slots := h.slots
  latch := h.latch
  counts := h.counts
  acc := h.acc
  status := by
    have hcause : (if s.err then s.ecause else c.code) ≠ 0 := by
      split
      · next herr => exact fun h0 => by simp [h.status.mp h0] at herr
      · exact Cause.code_ne_zero c
    simpa using hcause
  chain := h.chain

/-- A slot write keeps the slot invariant when it writes a table entry (rule R12). -/
theorem StateInv.after_writeSlot (h : StateInv s) (k : Fin 6) {c : Code} (hc : ∃ d : Digit, c = rom s.cfg d) :
    StateInv (writeSlot k c s) where
  params := h.params
  slots j := by
    by_cases hj : j = k
    · subst hj
      obtain ⟨d, hd⟩ := hc
      exact ⟨d, (writeSlot_slot_same j c).trans hd⟩
    · rw [writeSlot_slot_of_ne c hj]
      exact h.slots j
  latch := h.latch
  counts := h.counts
  acc := h.acc
  status := h.status
  chain := h.chain

/-! ## The operations of the serializer -/

/-- What the serializer does not touch keeps its part of the invariant; the rest is the serializer's to show. -/
theorem StateInv.of_serializerFrame (h : StateInv s) (hframe : SerializerFrame s t) (hlatch : t.latch = false)
    (hcounts : (t.pend.toNat, t.idx.toNat) ∈ reachableCounts t.fsm) (hacc : AccClear t)
    (hchain : t.sr &&& chainMask t.cfg = t.sr) : StateInv t where
  params := hframe.cfg ▸ h.params
  slots := by rw [hframe.cfg, hframe.slot]; exact h.slots
  latch := hlatch
  counts := hcounts
  acc := hacc
  status := by rw [hframe.err, hframe.ecause]; exact h.status
  chain := hchain

/-- Moving on to an FSM state that admits the present counts. -/
theorem StateInv.after_goto (h : StateInv s) {f : Fsm} (hcounts : (s.pend.toNat, s.idx.toNat) ∈ reachableCounts f) :
    StateInv (goto f s) :=
  h.of_serializerFrame (serializerFrame_goto f s) h.latch hcounts h.acc h.chain

theorem StateInv.after_init (h : StateInv s) : StateInv (afterInit s) :=
  h.of_serializerFrame (serializerFrame_afterInit s) rfl (List.mem_cons_self ..) (accClear_of_acc_zero rfl) h.chain

theorem StateInv.after_fill (h : StateInv s) (hf : s.fsm = .fill) (hi : s.idx.toNat < 6) (hp : s.pend.toNat ≤ 6) :
    StateInv (afterFill s hi) := by
  refine h.of_serializerFrame (serializerFrame_afterFill s hi) h.latch ?counts (accClear_afterFill hi hp h.acc) h.chain
  case counts =>
    rw [afterFill_pend_toNat hi hp, afterFill_idx_toNat hi]
    exact counts_fill_check _ (hf ▸ h.counts)

/-- A byte taken leaves nothing past the last stage of the chain (rule R24). -/
theorem chain_masked_sendByte (s : State) : (sendByte s).sr &&& chainMask (sendByte s).cfg = (sendByte s).sr :=
  chainTakeByte_masked _ _ _

/-- A byte sent keeps the invariant in an FSM state that admits the counts then; the chain has lost what passed its end. -/
theorem StateInv.after_byte (h : StateInv s) {f : Fsm} (hp : ¬s.pend < 8)
    (hcounts : (s.pend.toNat - 8, s.idx.toNat) ∈ reachableCounts f) : StateInv (goto f (sendByte s)) := by
  refine h.of_serializerFrame ((serializerFrame_sendByte s).trans (serializerFrame_goto f _)) h.latch ?counts
    (accClear_goto f (accClear_sendByte hp h.acc)) (chain_masked_sendByte s)
  case counts =>
    rw [goto_pend, sendByte_pend_toNat hp]
    exact hcounts

/-- The two bytes of the last OUTPUT leave nothing buffered (rule R82). -/
theorem StateInv.after_lastBytes (h : StateInv s) (hp : s.pend = 16) (hi : s.idx = 6) :
    StateInv (goto .done (sendByte (sendByte s))) := by
  have hfirst : ¬s.pend < 8 := by rw [hp]; decide
  have hsecond : ¬(sendByte s).pend < 8 := by rw [sendByte_pend, hp]; decide
  have hframe : SerializerFrame s (goto .done (sendByte (sendByte s))) :=
    ((serializerFrame_sendByte s).trans (serializerFrame_sendByte _)).trans (serializerFrame_goto .done _)
  refine h.of_serializerFrame hframe ?latch ?counts ?acc ?chain
  case latch => simpa only [goto_latch, sendByte_latch] using h.latch
  case counts =>
    simp only [goto_pend, goto_idx, goto_fsm, sendByte_pend, sendByte_idx, hp, hi]
    decide
  case acc => exact accClear_goto .done (accClear_sendByte hsecond (accClear_sendByte hfirst h.acc))
  case chain => exact chain_masked_sendByte (sendByte s)

theorem StateInv.after_done (h : StateInv s) (hf : s.fsm = .done) :
    StateInv (goto .idle (latchDown (latchUp s))) :=
  h.of_serializerFrame ((serializerFrame_latchPulse s).trans (serializerFrame_goto .idle _)) rfl
    (counts_done_idle _ (hf ▸ h.counts)) h.acc h.chain

theorem StateInv.after_reset (h : StateInv s) : StateInv (applyReset s) where
  params := h.params
  slots k := ⟨10, by
    rw [rom_of_not_lt (by decide)]
    simp only [applyReset_slot, Fin.getElem_fin, Vector.getElem_replicate]⟩
  latch := rfl
  counts := List.mem_cons_self ..
  acc := accClear_of_acc_zero rfl
  status := iff_of_true rfl rfl
  chain := h.chain

/-! ## Every step -/

theorem StateInv.after_idleStep (h : StateInv s) (hf : s.fsm = .idle) (hs : IdleCase s t) : StateInv t := by
  cases hs with
  | quiet ht => exact ht ▸ h.after_consume
  | rejected c ht => exact ht ▸ h.after_consume.after_reject c
  | slotWritten w p v k c _ _ _ hv ht => exact ht ▸ h.after_consume.after_writeSlot k (rom_of_encodeDigit hv)
  | committed w _ _ ht => exact ht ▸ h.after_consume.after_goto (counts_idle_init _ (hf ▸ h.counts))
  | hvDriven w e _ _ ht => exact ht ▸ h.after_consume.after_driveHv e
  | lampDriven w e _ _ ht => exact ht ▸ h.after_consume.after_driveLamp e

end

/-- Settles O54: by the cases of a step, each of them an operation that keeps the invariant. -/
theorem everyStepKeepsInvariant : Obligations.EveryStepKeepsInvariant := by
  intro s t h hstep
  have hcounts := h.counts
  cases step_cases hstep with
  | reset _ ht => exact ht ▸ h.after_tick.after_reset
  | quiet hr hf => exact h.after_idleStep hf (idleCase_of_step hr hf hstep)
  | reserved hr hf => exact h.after_idleStep hf (idleCase_of_step hr hf hstep)
  | accept hr hf => exact h.after_idleStep hf (idleCase_of_step hr hf hstep)
  | init _ _ _ ht => exact ht ▸ h.after_tick.after_init
  | toFill _ hf _ hp _ ht => exact ht ▸ h.after_tick.after_goto (counts_check_fill _ (hf ▸ hcounts) hp)
  | toOutput _ hf _ hp ht =>
    exact ht ▸ h.after_tick.after_goto (counts_check_output _ (hf ▸ hcounts) (Nat.le_of_not_lt hp))
  | fill _ hf _ hi hp ht => exact ht ▸ h.after_tick.after_fill hf hi hp
  | output _ hf _ hp hi ht =>
    have hcheck := counts_output_check _ (hf ▸ hcounts) (mt idx_eq_six_iff.mpr hi)
    exact ht ▸ h.after_tick.after_byte hp hcheck
  | last _ _ hp hi ht =>
    subst ht
    exact h.after_tick.after_lastBytes hp hi
  | done _ hf _ ht => exact ht ▸ h.after_tick.after_done hf

/-- Settles O53: the reset state has the default parameters, blank slots and counts of zero. -/
theorem invariantHoldsAtReset : Obligations.InvariantHoldsAtReset where
  params := Tests.witness_admissible
  slots k := ⟨10, by
    rw [rom_of_not_lt (by decide)]
    simp only [State.reset_slot, Fin.getElem_fin, Vector.getElem_replicate]⟩
  latch := rfl
  counts := List.mem_cons_self ..
  acc := accClear_of_acc_zero rfl
  status := iff_of_true rfl rfl
  chain := BitVec.and_allOnes

/-- An IDLE step with an even `pend` answers a next state, whatever stands at the port (rules R43, R120). -/
theorem exists_step_idle {s : State} (hr : rstNow s = false) (hf : s.fsm = .idle) (he : s.pend.toNat % 2 = 0) :
    ∃ t, step s = .next t := by
  cases hc : cmdNow s with
  | none => exact ⟨_, step_of_case (.quiet hr hf he hc rfl)⟩
  | some w =>
    cases hw : readWord w with
    | error c => exact ⟨_, step_of_case (.reserved hr hf he w hc c hw rfl)⟩
    | ok i =>
      obtain ⟨t, ht⟩ := exec_total i (consume s)
      exact ⟨t, step_of_case (.accept hr hf he w hc i hw ht)⟩

/-- In a reachable configuration every step answers a next state: the rows of the commit table meet what each serializer
state requires (rules R84, R92). -/
theorem exists_step_of_counts {s : State} (hcounts : (s.pend.toNat, s.idx.toNat) ∈ reachableCounts s.fsm)
    (hr : rstNow s = false) : ∃ t, step s = .next t := by
  have he : s.pend.toNat % 2 = 0 := counts_even _ _ hcounts
  cases hf : s.fsm with
  | idle => exact exists_step_idle hr hf he
  | init => exact ⟨_, step_of_case (.init hr hf he rfl)⟩
  | check =>
    by_cases hp : s.pend < 8
    · have hi : s.idx ≠ 6 := mt idx_eq_six_iff.mp (counts_check_slotLeft _ (hf ▸ hcounts) hp)
      exact ⟨_, step_of_case (.toFill hr hf he hp hi rfl)⟩
    · exact ⟨_, step_of_case (.toOutput hr hf he hp rfl)⟩
  | fill =>
    obtain ⟨hp, hi⟩ := counts_fill_require _ (hf ▸ hcounts)
    exact ⟨_, step_of_case (.fill hr hf he hi hp rfl)⟩
  | output =>
    have h8 : 8 ≤ s.pend.toNat := counts_output_require _ (hf ▸ hcounts)
    have hp : ¬s.pend < 8 := Nat.not_lt.mpr h8
    by_cases hi : s.idx = 6
    · have h16 : s.pend = 16 :=
        pend_eq_sixteen_iff.mpr (counts_output_last _ (hf ▸ hcounts) (idx_eq_six_iff.mp hi))
      exact ⟨_, step_of_case (.last hr hf h16 hi rfl)⟩
    · exact ⟨_, step_of_case (.output hr hf he hp hi rfl)⟩
  | done => exact ⟨_, step_of_case (.done hr hf he rfl)⟩

/-- Settles O55: a reset always steps, and without one the counts of the invariant do. -/
theorem invariantStatesAreNeverStuck : Obligations.InvariantStatesAreNeverStuck := by
  intro s h
  cases hr : rstNow s with
  | true => exact ⟨_, step_reset hr⟩
  | false => exact exists_step_of_counts h.counts hr

end Sys2Proof.Machine
end

section
/-! SUPPORT. The digit encoder and the table (rules R48, R50, R70), SETDIGIT as an update of one slot (rules R37, R66,
R68), and the other operations; the obligations about the operations themselves. -/

namespace Sys2Proof.Machine

/-! ## The digit encoder -/

/-- Settles O17: the encoder is bounds-checked at 10. -/
theorem encoderIsBoundsChecked : Obligations.EncoderIsBoundsChecked :=
  fun _ _ => ⟨encodeDigit_eq_some, fun h => encodeDigit_eq_none (Nat.not_le.mpr h)⟩

/-- Settles O18: inside 1..6 the fold index is 6 - p, and outside it is none. -/
theorem foldIndexIsSixMinusPosition : Obligations.FoldIndexIsSixMinusPosition := by
  intro p
  have hnone : (p = 0 ∨ p = 7) ↔ ¬(1 ≤ p.toNat ∧ p.toNat ≤ 6) := by rw [positionInRange_iff, not_not]
  rw [hnone]
  by_cases hp : 1 ≤ p.toNat ∧ p.toNat ≤ 6
  · simp only [foldIndex_eq_some hp, Option.some.injEq, Fin.ext_iff, reduceCtorEq, hp, and_self, not_true, iff_self,
      and_true]
    omega
  · simp only [foldIndex_eq_none hp, reduceCtorEq, hp, not_false_iff, iff_self, and_true, false_iff]
    omega

/-- The ten bits of a table entry: low at the cathode of a digit, all high for blank (rule R47). -/
theorem getLsbD_rom {cfg : Config} (v : Digit) {i : Nat} (hi : i < 10) :
    (rom cfg v).getLsbD i = if h : v.val < 10 then decide (i ≠ (cfg.cathode[v.val]'h).val) else true := by
  split
  · next h => exact getLsbD_rom_of_lt h hi
  · next h =>
    rw [rom_of_not_lt h]
    exact (BitVec.getLsbD_allOnes (v := 10)).trans (decide_eq_true hi)

/-- A digit's code is low at its own cathode, and blank is low nowhere. -/
theorem rom_low_iff {cfg : Config} {v : Digit} {c : Fin 10} :
    (rom cfg v).getLsbD c.val = false ↔ ∃ h : v.val < 10, cfg.cathode[v.val]'h = c := by
  rw [getLsbD_rom v c.isLt]
  split
  · next h => rw [decide_eq_false_iff_not, not_not, exists_prop_of_true h, Fin.ext_iff, eq_comm]
  · next h => simp only [h, IsEmpty.exists_iff, reduceCtorEq]

/-- Codes of distinct values differ: the low cathode tells the digits apart, and from blank (rule R48 (c)). -/
theorem rom_injective {cfg : Config} (hcfg : cfg.Admissible) {v w : Digit} (h : rom cfg v = rom cfg w) : v = w := by
  obtain ⟨hinj, -⟩ := hcfg
  by_cases hv : v.val < 10
  · obtain ⟨hw, heq⟩ := rom_low_iff.mp (h ▸ rom_low_iff.mpr ⟨hv, rfl⟩)
    exact Fin.ext (Fin.mk.inj (hinj ⟨v, hv⟩ ⟨w, hw⟩ heq.symm))
  · have hw : ¬w.val < 10 := fun hw => hv (rom_low_iff.mp (h ▸ rom_low_iff.mpr ⟨hw, rfl⟩)).1
    exact Fin.ext (by omega)

/-- Nine of ten places differ from a given one. -/
theorem countP_range_ne : ∀ c : Fin 10, ((List.range 10).countP fun i => decide (i ≠ c.val)) = 9 := by decide

theorem countP_rom (cfg : Config) (v : Digit) :
    ((List.range 10).countP fun i => (rom cfg v).getLsbD i) = if v.val = 10 then 10 else 9 := by
  by_cases hv : v.val < 10
  · rw [if_neg (by omega), ← countP_range_ne (cfg.cathode[v.val]'hv)]
    exact List.countP_congr fun i hi => by rw [getLsbD_rom_of_lt hv (List.mem_range.mp hi)]
  · rw [if_pos (by omega), rom_of_not_lt hv]
    decide

/-- The inverse looks a code up in the table, where it stands once (rule R48 (d)). -/
theorem unrom_rom {cfg : Config} (hcfg : cfg.Admissible) (v : Digit) : unrom cfg (rom cfg v) = some v := by
  have hblank : rom cfg 10 = 0x3FF := rom_of_not_lt (by decide)
  unfold unrom
  split
  · next h => rw [rom_injective hcfg (h.trans hblank.symm)]
  · obtain ⟨w, hw⟩ := Option.isSome_iff_exists.mp
      (List.find?_isSome.mpr ⟨v, List.mem_finRange v, beq_self_eq_true (rom cfg v)⟩ :
        ((List.finRange 11).find? fun w => rom cfg w == rom cfg v).isSome)
    have heq : rom cfg w = rom cfg v := eq_of_beq (List.find?_some (p := fun w => rom cfg w == rom cfg v) hw)
    rw [hw, rom_injective hcfg heq]

/-- Settles O16: the count, the injectivity and the inverse are each read off the low cathode of a code. -/
theorem digitCodesAreDistinctAndInvertible : Obligations.DigitCodesAreDistinctAndInvertible :=
  fun cfg hcfg => ⟨countP_rom cfg, fun _ _ => rom_injective hcfg, unrom_rom hcfg⟩

/-! ## SETDIGIT -/

section
variable {s : State}

/-- With both operands passed by the checks, SETDIGIT is one slot write, of a slot and a code that do not depend on the
slots. -/
theorem exec_setdigit_of_ok {p : BitVec 3} {v : BitVec 4} (hp : positionOk p = true) (hv : valueOk v = true) :
    ∃ (k : Fin 6) (d : Digit), k.val = 6 - p.toNat ∧
      ∀ s : State, exec (.setdigit p v) s = .next (writeSlot k (rom s.cfg d) s) := by
  have hp' := positionOk_iff.mp hp
  exact ⟨⟨6 - p.toNat, by omega⟩, ⟨v.toNat, Nat.lt_succ_of_le (valueOk_iff.mp hv)⟩, rfl, fun s =>
    exec_setdigit_of_valid hp' (valueOk_iff.mp hv)⟩

/-- A second write of a slot leaves nothing of the first. -/
theorem writeSlot_writeSlot_same (k : Fin 6) (c d : Code) :
    writeSlot k d (writeSlot k c s) = writeSlot k d s := by
  simp only [writeSlot, Vector.set_set]

/-- Writes of different slots commute. -/
theorem writeSlot_comm {j k : Fin 6} (h : j ≠ k) (c d : Code) :
    writeSlot j c (writeSlot k d s) = writeSlot k d (writeSlot j c s) := by
  simp only [writeSlot]
  rw [Vector.set_comm _ _ (Fin.val_ne_of_ne h.symm)]

end

/-- Settles O20: a rejected SETDIGIT is the reject itself, whose record names every field it changes. -/
theorem setdigitRejectsBadOperands : Obligations.SetdigitRejectsBadOperands := by
  intro s p v _
  refine ⟨fun hp => ?position, fun hp hv => ?value⟩
  case position =>
    rw [exec_setdigit_badPosition v hp]
    rfl
  case value =>
    rw [exec_setdigit_badValue hp hv]
    rfl

/-- Settles O22: both commands write the same slot, and the second write leaves nothing of the first. -/
theorem laterSetdigitReplacesEarlier : Obligations.LaterSetdigitReplacesEarlier := by
  intro s t p v w hp hv hw h
  obtain ⟨k, d, hk, hfirst⟩ := exec_setdigit_of_ok hp hv
  obtain ⟨j, e, hj, hsecond⟩ := exec_setdigit_of_ok hp hw
  obtain rfl : k = j := Fin.ext (hk.trans hj.symm)
  rw [hfirst] at h
  cases h
  rw [hsecond, hsecond, writeSlot_writeSlot_same, writeSlot_cfg]

/-- Settles O21: a repetition is a later SETDIGIT of the same value. -/
theorem setdigitTwiceEqualsOnce : Obligations.SetdigitTwiceEqualsOnce := by
  intro s t p v hp hv h
  rw [laterSetdigitReplacesEarlier s t p v v hp hv hv h, h]

/-- Settles O23: different positions write different slots. -/
theorem setdigitsToDifferentPositionsCommute : Obligations.SetdigitsToDifferentPositionsCommute := by
  intro s t u p q v w hpq hp hq hv hw ht hu
  obtain ⟨k, d, hk, hfirst⟩ := exec_setdigit_of_ok hp hv
  obtain ⟨j, e, hj, hsecond⟩ := exec_setdigit_of_ok hq hw
  have hjk : j ≠ k := by
    rintro rfl
    have hp' := positionOk_iff.mp hp
    have hq' := positionOk_iff.mp hq
    exact hpq (BitVec.eq_of_toNat_eq (by omega))
  rw [hfirst] at ht
  rw [hsecond] at hu
  cases ht
  cases hu
  refine ⟨_, hsecond _, ?_⟩
  rw [hfirst, writeSlot_comm hjk, writeSlot_cfg, writeSlot_cfg]

/-! ## COMMIT, SETHV and SETLAMP -/

/-- Settles O25: accepting COMMIT is one assignment to `fsm`. -/
theorem commitOnlyStartsTheSerializer : Obligations.CommitOnlyStartsTheSerializer := fun _ _ => rfl

/-- Settles O40: an `Hv` event moves neither the chain nor the display. -/
theorem sethvDrivesOnlyItsLine : Obligations.SethvDrivesOnlyItsLine := fun _ _ _ => rfl

/-- Settles O41: a `Lamp` event moves neither the chain nor the display. -/
theorem setlampDrivesOnlyItsLine : Obligations.SetlampDrivesOnlyItsLine := fun _ _ _ => rfl

end Sys2Proof.Machine
end

section
/-! SUPPORT. One visit to CHECK, OUTPUT and DONE (rules R78, R81, R82, R100), and the configurations without a step
(rule R92); the obligations about them. -/

namespace Sys2Proof.Machine

section
variable {s : State}

/-- Every field that a byte sent changes (rules R25, R81). -/
theorem sendByte_eq (s : State) :
    sendByte s = { s with acc := s.acc <<< 8, pend := s.pend - 8,
                          trace := s.trace ++ [.tx (s.acc.extractLsb' 8 8)],
                          sr := chainTakeByte s.cfg s.sr (s.acc.extractLsb' 8 8) } := rfl

/-- The low byte of the accumulator is the top byte after the first shift. -/
theorem shiftLeft_extract_high (a : BitVec 16) : (a <<< 8).extractLsb' 8 8 = a.extractLsb' 0 8 := by
  refine BitVec.eq_of_getLsbD_eq fun i hi => ?_
  have h16 : 8 + i < 16 := by omega
  have h8 : ¬8 + i < 8 := by omega
  simp only [BitVec.getLsbD_extractLsb', BitVec.getLsbD_shiftLeft, h16, h8, Nat.add_sub_cancel_left, Nat.zero_add,
    decide_true, decide_false, Bool.not_false, Bool.true_and]

/-- Two bytes sent empty the accumulator. -/
theorem shiftLeft_shiftLeft_eight (a : BitVec 16) : a <<< 8 <<< 8 = 0 := by
  rw [← BitVec.shiftLeft_add]
  exact BitVec.shiftLeft_eq_zero (le_refl 16)

/-- Every field that the last two bytes change (rule R82). -/
theorem sendByte_sendByte_eq (hp : s.pend = 16) :
    sendByte (sendByte s) =
      { s with acc := 0, pend := 0,
               trace := s.trace ++ [.tx (s.acc.extractLsb' 8 8), .tx (s.acc.extractLsb' 0 8)],
               sr := chainTakeByte s.cfg (chainTakeByte s.cfg s.sr (s.acc.extractLsb' 8 8))
                 (s.acc.extractLsb' 0 8) } := by
  have hzero : (16 : BitVec 5) - 8 - 8 = 0 := by decide
  rw [sendByte_eq (sendByte s)]
  simp only [sendByte_eq s, shiftLeft_extract_high, shiftLeft_shiftLeft_eight, hp, hzero, List.append_assoc,
    List.cons_append, List.nil_append]

/-- Every field that the latch pulse changes (rule R100). -/
theorem latchDown_latchUp_eq (s : State) :
    latchDown (latchUp s) = { s with latch := false, trace := s.trace ++ [.latchRise, .latchFall],
                                     vis := s.sr.extractLsb' 0 60 } := by
  simp only [latchDown, latchUp, emit, chainAfter, visAfter, List.append_assoc, List.cons_append, List.nil_append]

end

/-- Settles O27: CHECK compares `pend` with 8. -/
theorem checkBranchesOnEightBits : Obligations.CheckBranchesOnEightBits := by
  intro s hr hf he
  have hfill : s.pend.toNat < 8 → s.idx ≠ 6 → StepCase s (goto .fill (tick s)) := fun hp hi =>
    .toFill hr hf he hp hi rfl
  have houtput : 8 ≤ s.pend.toNat → StepCase s (goto .output (tick s)) := fun hp =>
    .toOutput hr hf he (Nat.not_lt.mpr hp) rfl
  exact ⟨fun hp hi => step_of_case (hfill hp hi), fun hp => step_of_case (houtput hp)⟩

/-- Settles O29: the step is one byte sent. -/
theorem outputSendsTopByte : Obligations.OutputSendsTopByte := by
  intro s hr hf he hp hi
  have hp' : ¬s.pend < 8 := Nat.not_lt.mpr hp
  refine ⟨goto .check (sendByte (tick s)), step_of_case (.output hr hf he hp' hi rfl), ?state, ?pend⟩
  case state => rw [goto, sendByte_eq]; rfl
  case pend => exact sendByte_pend_toNat (s := tick s) hp'

/-- Settles O30: the step is the last two bytes sent. -/
theorem lastOutputSendsBothBytes : Obligations.LastOutputSendsBothBytes := by
  intro s hr hf hp hi
  have hlast : StepCase s (goto .done (sendByte (sendByte (tick s)))) := .last hr hf hp hi rfl
  rw [step_of_case hlast, sendByte_sendByte_eq (s := tick s) hp]
  rfl

/-- Settles O31: the step is one latch pulse. -/
theorem donePulsesLatchOnce : Obligations.DonePulsesLatchOnce := by
  intro s hr hf he
  have hdone : StepCase s (goto .idle (latchDown (latchUp (tick s)))) := .done hr hf he rfl
  rw [step_of_case hdone, latchDown_latchUp_eq]
  rfl

/-- Settles O32: an odd `pend` is looked at first, and each serializer state names what it does not accept. -/
theorem stuckConfigurationsHaveNoStep : Obligations.StuckConfigurationsHaveNoStep := by
  intro s hr
  refine ⟨step_of_odd hr, fun hf he hp hi => ?check, fun hf he h => ?fill, fun hf he hp => ?output,
    fun hf he hp hi h16 => ?last⟩
  case check =>
    rw [step_of_even hr he, visitState_check hf]
    exact stepCheck_stuck hp hi
  case fill =>
    rw [step_of_even hr he, visitState_fill hf]
    exact stepFill_stuck fun hreq => h.elim (Nat.not_lt.mpr hreq.2) (Nat.not_lt.mpr (Nat.le_of_lt_succ hreq.1))
  case output =>
    rw [step_of_even hr he, visitState_output hf]
    exact stepOutput_stuck hp
  case last =>
    rw [step_of_even hr he, visitState_output hf]
    exact stepOutput_stuckLast (Nat.not_lt.mpr hp) hi h16

end Sys2Proof.Machine
end

section
/-! SUPPORT. What changes a slot, a line, the error record, the event trace, the latch line, the chain and the display
(rules R11, R18 to R20, R102 to R106, R126): each obligation follows from the cases of a step. -/

namespace Sys2Proof.Machine

section
variable {s t : State}

/-! ## Slots, lines and the error record -/

/-- An IDLE step changes a slot only by writing that slot, and then no other (rules R11, R32). -/
theorem IdleCase.slotWritten_of_ne {k : Fin 6} (h : IdleCase s t) (hk : t.slot[k] ≠ s.slot[k]) :
    (∃ (w : Byte) (p : BitVec 3) (v : BitVec 4), cmdNow s = some w ∧ readWord w = .ok (.setdigit p v) ∧
      foldIndex p = some k ∧ encodeDigit s.cfg v = some t.slot[k]) ∧
    ∀ j : Fin 6, j ≠ k → t.slot[j] = s.slot[j] := by
  cases h with
  | quiet ht => subst ht; exact absurd rfl hk
  | rejected c ht => subst ht; exact absurd rfl hk
  | slotWritten w p v i c hc hw hi hv ht =>
    subst ht
    obtain rfl : k = i := by
      by_contra hki
      exact hk (writeSlot_slot_of_ne c hki)
    refine ⟨⟨w, p, v, hc, hw, hi, ?_⟩, fun j hj => writeSlot_slot_of_ne c hj⟩
    exact hv.trans (congrArg some (writeSlot_slot_same k c).symm)
  | committed w hc hw ht => subst ht; exact absurd rfl hk
  | hvDriven w e hc hw ht => subst ht; exact absurd rfl hk
  | lampDriven w e hc hw ht => subst ht; exact absurd rfl hk

/-- An IDLE step changes `hv` only by a SETHV, and `lamp` only by a SETLAMP, of the new level (rules R18, R19). -/
theorem IdleCase.lineDriven_of_ne (h : IdleCase s t) :
    (t.hv ≠ s.hv → ∃ w, cmdNow s = some w ∧ readWord w = .ok (.sethv t.hv)) ∧
    (t.lamp ≠ s.lamp → ∃ w, cmdNow s = some w ∧ readWord w = .ok (.setlamp t.lamp)) := by
  cases h with
  | quiet ht => subst ht; exact ⟨absurd rfl, absurd rfl⟩
  | rejected c ht => subst ht; exact ⟨absurd rfl, absurd rfl⟩
  | slotWritten w p v k c _ _ _ _ ht => subst ht; exact ⟨absurd rfl, absurd rfl⟩
  | committed w _ _ ht => subst ht; exact ⟨absurd rfl, absurd rfl⟩
  | hvDriven w e hc hw ht => subst ht; exact ⟨fun _ => ⟨w, hc, hw⟩, absurd rfl⟩
  | lampDriven w e hc hw ht => subst ht; exact ⟨absurd rfl, fun _ => ⟨w, hc, hw⟩⟩

/-- An IDLE step rejects or leaves the error record alone (rule R20). -/
theorem IdleCase.rejected_or_record (h : IdleCase s t) :
    (∃ c, t = reject c (consume s)) ∨ (t.err = s.err ∧ t.ecause = s.ecause) := by
  cases h with
  | quiet ht => subst ht; exact .inr ⟨rfl, rfl⟩
  | rejected c ht => exact .inl ⟨c, ht⟩
  | slotWritten w p v k c _ _ _ _ ht => subst ht; exact .inr ⟨rfl, rfl⟩
  | committed w _ _ ht => subst ht; exact .inr ⟨rfl, rfl⟩
  | hvDriven w e _ _ ht => subst ht; exact .inr ⟨rfl, rfl⟩
  | lampDriven w e _ _ ht => subst ht; exact .inr ⟨rfl, rfl⟩

/-- Without a reset, a step rejects a word in IDLE or leaves the error record alone. -/
theorem rejected_or_record_of_step (hr : rstNow s = false) (h : step s = .next t) :
    (s.fsm = .idle ∧ ∃ c, t = reject c (consume s)) ∨ (t.err = s.err ∧ t.ecause = s.ecause) := by
  rcases idleCase_or_serializerFrame hr h with ⟨hf, hidle⟩ | ⟨-, hframe⟩
  · exact hidle.rejected_or_record.imp_left fun hc => ⟨hf, hc⟩
  · exact .inr ⟨hframe.err, hframe.ecause⟩

end

/-- Settles O24: the serializer leaves the slots alone, and an IDLE step changes one only by writing it. -/
theorem slotsChangeOnlyBySetdigit : Obligations.SlotsChangeOnlyBySetdigit := by
  intro s t k hr h hk
  rcases idleCase_or_serializerFrame hr h with ⟨hf, hidle⟩ | ⟨-, hframe⟩
  · exact ⟨hf, hidle.slotWritten_of_ne hk⟩
  · exact absurd (by rw [hframe.slot]) hk

/-- Settles O42: the serializer leaves the lines alone, and an IDLE step changes one only by its command. -/
theorem linesChangeOnlyByTheirCommand : Obligations.LinesChangeOnlyByTheirCommand := by
  intro s t hr h
  rcases idleCase_or_serializerFrame hr h with ⟨hf, hidle⟩ | ⟨-, hframe⟩
  · obtain ⟨hhv, hlamp⟩ := hidle.lineDriven_of_ne
    exact ⟨fun hne => ⟨hf, hhv hne⟩, fun hne => ⟨hf, hlamp hne⟩⟩
  · exact ⟨absurd hframe.hv, absurd hframe.lamp⟩

/-- Settles O44: only a reject touches the record, and it takes the cause only while `err` is clear. -/
theorem errorRecordKeepsFirstCause : Obligations.ErrorRecordKeepsFirstCause := by
  intro s t hr h
  rcases rejected_or_record_of_step hr h with ⟨hf, c, rfl⟩ | ⟨herr, hcause⟩
  · refine ⟨fun hset => ⟨rfl, ?kept⟩, fun hclear _ => ⟨hf, c, rfl, ?taken, Cause.code_ne_zero c⟩,
      fun hclear => ?clear⟩
    case kept => simp [hset]
    case taken => simp [hclear]
    case clear => cases hclear
  · exact ⟨fun hset => ⟨herr.trans hset, hcause⟩, fun hclear hset => by simp [herr, hclear] at hset, fun _ => hcause⟩

/-! ## Events, latch line, chain and display -/

section
variable {s t : State}

/-- What an IDLE step leaves alone: the serializer's registers, the latch line and the environment (rules R25, R26). -/
structure IdleFrame (s t : State) : Prop where
  latch : t.latch = s.latch
  sr : t.sr = s.sr
  vis : t.vis = s.vis
  cmdIn : t.cmdIn = s.cmdIn.tail
  events : ∃ es : List Event, t.trace = s.trace ++ es ∧ ∀ e ∈ es, emittedIn e = .idle

theorem IdleCase.frame (h : IdleCase s t) : IdleFrame s t := by
  cases h with
  | quiet ht => subst ht; exact ⟨rfl, rfl, rfl, rfl, [], by simp⟩
  | rejected c ht => subst ht; exact ⟨rfl, rfl, rfl, rfl, [.reject c], by simp [emittedIn]⟩
  | slotWritten w p v k c _ _ _ _ ht => subst ht; exact ⟨rfl, rfl, rfl, rfl, [], by simp⟩
  | committed w _ _ ht => subst ht; exact ⟨rfl, rfl, rfl, rfl, [], by simp⟩
  | hvDriven w e _ _ ht => subst ht; exact ⟨rfl, rfl, rfl, rfl, [.hv e], by simp [emittedIn]⟩
  | lampDriven w e _ _ ht => subst ht; exact ⟨rfl, rfl, rfl, rfl, [.lamp e], by simp [emittedIn]⟩

/-- What each step does to the latch line, the chain, the display and the trace, by the FSM state it ran. -/
inductive OutputCase (s t : State) : Prop where
  | reset (hr : rstNow s = true) (hlatch : t.latch = false) (hsr : t.sr = s.sr) (hvis : t.vis = s.vis)
      (htrace : t.trace = s.trace)
  | idle (hr : rstNow s = false) (hf : s.fsm = .idle) (hframe : IdleFrame s t)
  | silent (hlatch : t.latch = s.latch ∨ t.latch = false) (hsr : t.sr = s.sr) (hvis : t.vis = s.vis)
      (htrace : t.trace = s.trace)
  | sends (hr : rstNow s = false) (hf : s.fsm = .output) (bs : List Byte) (hlatch : t.latch = s.latch)
      (hvis : t.vis = s.vis) (htrace : t.trace = s.trace ++ bs.map Event.tx)
  | pulses (hr : rstNow s = false) (hf : s.fsm = .done) (hlatch : t.latch = false) (hsr : t.sr = s.sr)
      (hvis : t.vis = s.sr.extractLsb' 0 60) (htrace : t.trace = s.trace ++ [.latchRise, .latchFall])

theorem outputCase_of_step (h : step s = .next t) : OutputCase s t := by
  cases step_cases h with
  | reset hr ht => subst ht; exact .reset hr rfl rfl rfl rfl
  | quiet hr hf => exact .idle hr hf (idleCase_of_step hr hf h).frame
  | reserved hr hf => exact .idle hr hf (idleCase_of_step hr hf h).frame
  | accept hr hf => exact .idle hr hf (idleCase_of_step hr hf h).frame
  | init _ _ _ ht => subst ht; exact .silent (.inr rfl) rfl rfl rfl
  | toFill _ _ _ _ _ ht => subst ht; exact .silent (.inl rfl) rfl rfl rfl
  | toOutput _ _ _ _ ht => subst ht; exact .silent (.inl rfl) rfl rfl rfl
  | fill _ _ _ _ _ ht => subst ht; exact .silent (.inl rfl) rfl rfl rfl
  | output hr hf _ _ _ ht => subst ht; exact .sends hr hf [s.acc.extractLsb' 8 8] rfl rfl rfl
  | last hr hf hp _ ht =>
    rw [sendByte_sendByte_eq (s := tick s) hp] at ht
    subst ht
    exact .sends hr hf [s.acc.extractLsb' 8 8, s.acc.extractLsb' 0 8] rfl rfl rfl
  | done hr hf _ ht =>
    rw [latchDown_latchUp_eq] at ht
    subst ht
    exact .pulses hr hf rfl rfl rfl rfl

end

/-- Settles O46: each case of a step names the events it appends. -/
theorem eventsBelongToTheirFsmState : Obligations.EventsBelongToTheirFsmState := by
  intro s t h
  cases outputCase_of_step h with
  | reset _ _ _ _ htrace => exact ⟨[], by simpa using htrace, by simp, fun _ => rfl⟩
  | idle hr hf hframe =>
    obtain ⟨es, htrace, hes⟩ := hframe.events
    exact ⟨es, htrace, fun e he => (hes e he).trans hf.symm, fun hr' => by simp [hr] at hr'⟩
  | silent _ _ _ htrace => exact ⟨[], by simpa using htrace, by simp, fun _ => rfl⟩
  | sends hr hf bs _ _ htrace =>
    refine ⟨bs.map Event.tx, htrace, fun e he => ?_, fun hr' => by simp [hr] at hr'⟩
    obtain ⟨b, -, rfl⟩ := List.mem_map.mp he
    exact hf.symm
  | pulses hr hf _ _ _ htrace =>
    refine ⟨_, htrace, ?_, fun hr' => by simp [hr] at hr'⟩
    simp [hf, emittedIn]

/-- Settles O47: an operation never drives the latch line, and every step keeps it or lowers it. -/
theorem latchLineStaysLow : Obligations.LatchLineStaysLow := by
  refine ⟨fun i s t h => ?operation, fun s t hlow h => ?step⟩
  case operation =>
    rcases exec_cases h with ⟨p, v, k, c, -, -, -, rfl⟩ | ⟨p, v, -, -, rfl⟩ | ⟨p, v, k, -, -, -, rfl⟩ | ⟨-, rfl⟩ |
      ⟨e, -, rfl⟩ | ⟨e, -, rfl⟩ <;> rfl
  case step =>
    cases outputCase_of_step h with
    | reset _ hlatch => exact hlatch
    | idle _ _ hframe => exact hframe.latch.trans hlow
    | silent hlatch => exact hlatch.elim (·.trans hlow) id
    | sends _ _ _ hlatch => exact hlatch.trans hlow
    | pulses _ _ hlatch => exact hlatch

/-- Settles O48: only DONE captures, and only OUTPUT shifts. -/
theorem displayChangesOnlyInDone : Obligations.DisplayChangesOnlyInDone := by
  intro s t h
  cases outputCase_of_step h with
  | reset _ _ hsr hvis => exact ⟨absurd hvis, absurd hsr⟩
  | idle _ _ hframe => exact ⟨absurd hframe.vis, absurd hframe.sr⟩
  | silent _ hsr hvis => exact ⟨absurd hvis, absurd hsr⟩
  | sends hr hf _ _ hvis => exact ⟨absurd hvis, fun _ => ⟨hf, hr⟩⟩
  | pulses hr hf _ hsr hvis => exact ⟨fun _ => ⟨hf, hr, hvis⟩, absurd hsr⟩

/-! ## Runs without a COMMIT -/

section
variable {s t : State}

/-- A run of `n + 1` steps that answers a next state starts with a step that does. -/
theorem exists_step_of_run_succ {n : Nat} (h : Host.Core.run Sys2Proof.core (n + 1) s = .next t) :
    ∃ u, step s = .next u ∧ Host.Core.run Sys2Proof.core n u = .next t := by
  cases hs : step s with
  | next u => exact ⟨u, rfl, (run_succ hs).symm.trans h⟩
  | fault r =>
    have hs' : Sys2Proof.core.step s = .fault r := hs
    simp [Host.Core.run, hs'] at h
  | refused r =>
    have hs' : Sys2Proof.core.step s = .refused r := hs
    simp [Host.Core.run, hs'] at h

/-- No COMMIT word is queued at the port. -/
def NoCommitQueued (s : State) : Prop := ∀ w, some w ∈ s.cmdIn → readWord w ≠ .ok .commit

/-- An IDLE step stays in IDLE unless it accepts a COMMIT. -/
theorem IdleCase.fsm_of_noCommit (h : IdleCase s t) (hf : s.fsm = .idle) (hno : NoCommitQueued s) : t.fsm = .idle := by
  cases h with
  | quiet ht => subst ht; exact hf
  | rejected c ht => subst ht; exact hf
  | slotWritten w p v k c _ _ _ _ ht => subst ht; exact hf
  | committed w hc hw ht =>
    have hmem : some w ∈ s.cmdIn := by
      unfold cmdNow at hc
      cases hq : s.cmdIn with
      | nil => simp [hq] at hc
      | cons o rest => simp_all
    exact absurd hw (hno w hmem)
  | hvDriven w e _ _ ht => subst ht; exact hf
  | lampDriven w e _ _ ht => subst ht; exact hf

/-- One step from IDLE without a COMMIT, reset or not: IDLE again, still no COMMIT queued, chain and display as they
were, and only IDLE events. -/
theorem step_of_noCommit (hf : s.fsm = .idle) (hno : NoCommitQueued s) (h : step s = .next t) :
    t.fsm = .idle ∧ NoCommitQueued t ∧ t.sr = s.sr ∧ t.vis = s.vis ∧
    ∃ es : List Event, t.trace = s.trace ++ es ∧ ∀ e ∈ es, emittedIn e = .idle := by
  cases hr : rstNow s with
  | true =>
    rw [step_reset hr] at h
    cases h
    exact ⟨rfl, hno, rfl, rfl, [], by simp⟩
  | false =>
    have hidle := idleCase_of_step hr hf h
    obtain ⟨-, hsr, hvis, hqueue, hevents⟩ := hidle.frame
    refine ⟨hidle.fsm_of_noCommit hf hno, fun w hw => hno w ?_, hsr, hvis, hevents⟩
    rw [hqueue] at hw
    exact List.mem_of_mem_tail hw

end

/-- Settles O51: by induction on the steps of the run, each of them an IDLE step without a COMMIT. -/
theorem withoutCommitDisplayHolds : Obligations.WithoutCommitDisplayHolds := by
  intro n
  induction n with
  | zero =>
    intro s t hf _ h
    cases run_zero.symm.trans h
    exact ⟨hf, rfl, rfl, [], by simp⟩
  | succ n ih =>
    intro s t hf hno h
    obtain ⟨u, hstep, hrun⟩ := exists_step_of_run_succ h
    obtain ⟨hfu, hnou, hsru, hvisu, es, htraceu, hes⟩ := step_of_noCommit hf hno hstep
    obtain ⟨hft, hsrt, hvist, fs, htracet, hfs⟩ := ih u t hfu hnou hrun
    refine ⟨hft, hsrt.trans hsru, hvist.trans hvisu, es ++ fs, by rw [htracet, htraceu, List.append_assoc], ?_⟩
    intro e he
    exact (List.mem_append.mp he).elim (hes e) (hfs e)

end Sys2Proof.Machine
end

section
/-! SUPPORT. Steps of two states side by side: states that differ only in LATCH_HIGH_CYCLES (rules R6, R107), only in the
error record (rule R126), or in all but the serializer's control (rule R84). -/

namespace Sys2Proof.Machine

/-! ## LATCH_HIGH_CYCLES -/

section
variable {s t : State}

/-- The state with another LATCH_HIGH_CYCLES. -/
def withLatchCycles (n : Nat) (s : State) : State := { s with cfg := { s.cfg with latchHighCycles := n } }

/-- The digit encoder reads CATHODE_BIT alone. -/
theorem encodeDigit_withLatchCycles (n : Nat) (s : State) (v : BitVec 4) :
    encodeDigit (withLatchCycles n s).cfg v = encodeDigit s.cfg v := rfl

/-- A byte enters the chain by TX_MSB_FIRST and CHAIN_LEN alone. -/
theorem chainTakeByte_withLatchCycles (n : Nat) (s : State) (sr : BitVec 64) (b : Byte) :
    chainTakeByte (withLatchCycles n s).cfg sr b = chainTakeByte s.cfg sr b := rfl

theorem sendByte_withLatchCycles (n : Nat) (s : State) :
    sendByte (withLatchCycles n s) = withLatchCycles n (sendByte s) := by
  rw [sendByte_eq, sendByte_eq, chainTakeByte_withLatchCycles]
  rfl

theorem exec_withLatchCycles (n : Nat) {i : Instr} (h : exec i s = .next t) :
    exec i (withLatchCycles n s) = .next (withLatchCycles n t) := by
  cases i with
  | setdigit p v =>
    simp only [exec, execSetdigit] at h ⊢
    rw [encodeDigit_withLatchCycles]
    split at h
    · cases h; rfl
    · split at h
      · cases h; rfl
      · cases h; rfl
  | commit => cases h; rfl
  | sethv e => cases h; rfl
  | setlamp e => cases h; rfl

/-- Every case of a step is a case for the state with another LATCH_HIGH_CYCLES too. -/
theorem StepCase.withLatchCycles (n : Nat) (h : StepCase s t) :
    StepCase (withLatchCycles n s) (withLatchCycles n t) := by
  cases h with
  | reset hr ht => exact .reset hr (ht ▸ rfl)
  | quiet hr hf he hc ht => exact .quiet hr hf he hc (ht ▸ rfl)
  | reserved hr hf he w hc c hw ht => exact .reserved hr hf he w hc c hw (ht ▸ rfl)
  | accept hr hf he w hc i hw ht => exact .accept hr hf he w hc i hw (exec_withLatchCycles n ht)
  | init hr hf he ht => exact .init hr hf he (ht ▸ rfl)
  | toFill hr hf he hp hi ht => exact .toFill hr hf he hp hi (ht ▸ rfl)
  | toOutput hr hf he hp ht => exact .toOutput hr hf he hp (ht ▸ rfl)
  | fill hr hf he hi hp ht => exact .fill hr hf he hi hp (ht ▸ rfl)
  | output hr hf he hp hi ht =>
    have hbyte := congrArg (goto .check) (sendByte_withLatchCycles n (tick s))
    exact .output hr hf he hp hi (ht ▸ hbyte.symm)
  | last hr hf hp hi ht =>
    have hfirst := congrArg sendByte (sendByte_withLatchCycles n (tick s))
    have hbytes := congrArg (goto .done) (hfirst.trans (sendByte_withLatchCycles n (sendByte (tick s))))
    subst ht
    exact .last hr hf hp hi hbytes.symm
  | done hr hf he ht => exact .done hr hf he (ht ▸ rfl)

end

/-- Settles O52: no operation reads LATCH_HIGH_CYCLES, so each case of a step carries over. -/
theorem latchHighCyclesIsUnobservable : Obligations.LatchHighCyclesIsUnobservable := fun _ _ n h =>
  step_of_case ((step_cases h).withLatchCycles n)

/-! ## The error record -/

section
variable {s t : State}

/-- The state with another error record. -/
def withRecord (e : Bool) (c : BitVec 2) (s : State) : State := { s with err := e, ecause := c }

/-- Two states agree but for the error record. -/
def SameButRecord (t r : State) : Prop := r = { t with err := r.err, ecause := r.ecause }

theorem sameButRecord_withRecord (e : Bool) (c : BitVec 2) (t : State) : SameButRecord t (withRecord e c t) := rfl

theorem sendByte_withRecord (e : Bool) (c : BitVec 2) (s : State) :
    sendByte (withRecord e c s) = withRecord e c (sendByte s) := rfl

/-- An operation does the same whatever the error record holds, but for the record. -/
theorem exec_withRecord (e : Bool) (c : BitVec 2) {i : Instr} (h : exec i s = .next t) :
    ∃ r, exec i (withRecord e c s) = .next r ∧ SameButRecord t r := by
  cases i with
  | setdigit p v =>
    have hcfg : (withRecord e c s).cfg = s.cfg := rfl
    simp only [exec, execSetdigit, hcfg] at h ⊢
    split at h
    · cases h; exact ⟨_, rfl, rfl⟩
    · split at h
      · cases h; exact ⟨_, rfl, rfl⟩
      · cases h; exact ⟨_, rfl, rfl⟩
  | commit => cases h; exact ⟨_, rfl, rfl⟩
  | sethv e => cases h; exact ⟨_, rfl, rfl⟩
  | setlamp e => cases h; exact ⟨_, rfl, rfl⟩

/-- Every case of a step is a case for the state with another error record too, and ends the same but for the record. -/
theorem StepCase.withRecord (e : Bool) (c : BitVec 2) (h : StepCase s t) :
    ∃ r, StepCase (withRecord e c s) r ∧ SameButRecord t r := by
  cases h with
  | reset hr ht => subst ht; exact ⟨_, .reset hr rfl, rfl⟩
  | quiet hr hf he hc ht => subst ht; exact ⟨_, .quiet hr hf he hc rfl, rfl⟩
  | reserved hr hf he w hc d hw ht => subst ht; exact ⟨_, .reserved hr hf he w hc d hw rfl, rfl⟩
  | accept hr hf he w hc i hw ht =>
    obtain ⟨r, hexec, hsame⟩ := exec_withRecord e c ht
    exact ⟨r, .accept hr hf he w hc i hw hexec, hsame⟩
  | init hr hf he ht => subst ht; exact ⟨_, .init hr hf he rfl, rfl⟩
  | toFill hr hf he hp hi ht => subst ht; exact ⟨_, .toFill hr hf he hp hi rfl, rfl⟩
  | toOutput hr hf he hp ht => subst ht; exact ⟨_, .toOutput hr hf he hp rfl, rfl⟩
  | fill hr hf he hi hp ht => subst ht; exact ⟨_, .fill hr hf he hi hp rfl, rfl⟩
  | output hr hf he hp hi ht => subst ht; exact ⟨_, .output hr hf he hp hi rfl, sameButRecord_withRecord e c _⟩
  | last hr hf hp hi ht =>
    have hbytes : sendByte (sendByte (Machine.withRecord e c (tick s))) =
        Machine.withRecord e c (sendByte (sendByte (tick s))) := by
      rw [sendByte_withRecord, sendByte_withRecord]
    have hdone := congrArg (goto .done) hbytes
    subst ht
    exact ⟨_, .last hr hf hp hi hdone.symm, sameButRecord_withRecord e c (goto .done (sendByte (sendByte (tick s))))⟩
  | done hr hf he ht => subst ht; exact ⟨_, .done hr hf he rfl, rfl⟩

end

/-- Settles O45: no case of a step depends on the error record, and only a reject and a reset write it. -/
theorem errorRecordBlocksNothing : Obligations.ErrorRecordBlocksNothing := by
  intro s t e c h
  obtain ⟨r, hcase, hsame⟩ := (step_cases h).withRecord e c
  exact ⟨r, step_of_case hcase, hsame⟩

/-! ## The serializer's control -/

/-- Two states agree on the serializer's control and the inputs. -/
structure SameControl (s u : State) : Prop where
  fsm : u.fsm = s.fsm
  pend : u.pend = s.pend
  idx : u.idx = s.idx
  rstIn : u.rstIn = s.rstIn
  cmdIn : u.cmdIn = s.cmdIn

section
variable {s t u : State}

theorem SameControl.rstNow_eq (h : SameControl s u) : rstNow u = rstNow s := by
  simp only [rstNow, h.rstIn]

theorem SameControl.after_tick (h : SameControl s u) : SameControl (tick s) (tick u) :=
  ⟨h.fsm, h.pend, h.idx, congrArg List.tail h.rstIn, h.cmdIn⟩

theorem SameControl.after_goto (h : SameControl s u) (f : Fsm) : SameControl (goto f s) (goto f u) :=
  ⟨rfl, h.pend, h.idx, h.rstIn, h.cmdIn⟩

theorem SameControl.after_reset (h : SameControl s u) : SameControl (applyReset s) (applyReset u) :=
  ⟨rfl, rfl, rfl, h.rstIn, h.cmdIn⟩

theorem SameControl.after_init (h : SameControl s u) : SameControl (afterInit s) (afterInit u) :=
  ⟨rfl, rfl, rfl, h.rstIn, h.cmdIn⟩

theorem SameControl.after_fill (h : SameControl s u) (hs : s.idx.toNat < 6) (hu : u.idx.toNat < 6) :
    SameControl (afterFill s hs) (afterFill u hu) :=
  ⟨rfl, congrArg (· + 10) h.pend, congrArg (· + 1) h.idx, h.rstIn, h.cmdIn⟩

theorem SameControl.after_byte (h : SameControl s u) : SameControl (sendByte s) (sendByte u) :=
  ⟨h.fsm, congrArg (· - 8) h.pend, h.idx, h.rstIn, h.cmdIn⟩

theorem SameControl.after_latchPulse (h : SameControl s u) :
    SameControl (latchDown (latchUp s)) (latchDown (latchUp u)) :=
  ⟨h.fsm, h.pend, h.idx, h.rstIn, h.cmdIn⟩

/-- Outside IDLE every case of a step is a case for each state with the same control, and keeps the control the same. -/
theorem StepCase.of_sameControl (h : StepCase s t) (hf : s.fsm ≠ .idle) (hsame : SameControl s u) :
    ∃ r, StepCase u r ∧ SameControl t r := by
  have hr' := hsame.rstNow_eq
  have hf' := hsame.fsm
  have hp' := hsame.pend
  have hi' := hsame.idx
  have htick := hsame.after_tick
  cases h with
  | reset hr ht => exact ⟨_, .reset (hr'.trans hr) rfl, ht ▸ htick.after_reset⟩
  | quiet _ hidle => exact absurd hidle hf
  | reserved _ hidle => exact absurd hidle hf
  | accept _ hidle => exact absurd hidle hf
  | init hr hf he ht => exact ⟨_, .init (hr'.trans hr) (hf'.trans hf) (hp' ▸ he) rfl, ht ▸ htick.after_init⟩
  | toFill hr hf he hp hi ht =>
    exact ⟨_, .toFill (hr'.trans hr) (hf'.trans hf) (hp' ▸ he) (hp' ▸ hp) (hi' ▸ hi) rfl,
      ht ▸ htick.after_goto _⟩
  | toOutput hr hf he hp ht =>
    exact ⟨_, .toOutput (hr'.trans hr) (hf'.trans hf) (hp' ▸ he) (hp' ▸ hp) rfl, ht ▸ htick.after_goto _⟩
  | fill hr hf he hi hp ht =>
    have hiu : (tick u).idx.toNat < 6 := htick.idx ▸ hi
    exact ⟨_, .fill (hr'.trans hr) (hf'.trans hf) (hp' ▸ he) hiu (hp' ▸ hp) rfl, ht ▸ htick.after_fill hi hiu⟩
  | output hr hf he hp hi ht =>
    exact ⟨_, .output (hr'.trans hr) (hf'.trans hf) (hp' ▸ he) (hp' ▸ hp) (hi' ▸ hi) rfl,
      ht ▸ htick.after_byte.after_goto _⟩
  | last hr hf hp hi ht =>
    exact ⟨_, .last (hr'.trans hr) (hf'.trans hf) (hp'.trans hp) (hi'.trans hi) rfl,
      ht ▸ htick.after_byte.after_byte.after_goto _⟩
  | done hr hf he ht =>
    exact ⟨_, .done (hr'.trans hr) (hf'.trans hf) (hp' ▸ he) rfl, ht ▸ htick.after_latchPulse.after_goto _⟩

end

/-- Settles O35: the cases of a serializer step are selected by the control and the reset input alone. -/
theorem serializerControlIgnoresData : Obligations.SerializerControlIgnoresData := by
  intro s u t hidle hf hp hi hr hc h
  obtain ⟨r, hcase, hfsm, hpend, hidx, hrst, hcmd⟩ := (step_cases h).of_sameControl hidle ⟨hf, hp, hi, hr, hc⟩
  exact ⟨r, step_of_case hcase, hfsm, hpend, hidx, hrst, hcmd⟩

end Sys2Proof.Machine
end

section
/-! SUPPORT. The frame bit by bit (rules R52 to R54, R88, R89): which bit of which code stands at a place of the stream,
and which bit of which byte; the obligations about the frame. -/

namespace Sys2Proof.Machine

/-! ## The bits of a stream and of eight bytes -/

/-- Place `i` of the stream holds bit `i mod 10` of the code of slot `5 - i / 10` (rule R52). -/
theorem stream_getLsbD (cs : Vector Code 6) {i : Nat} (hi : i < 60) :
    (stream cs).getLsbD i = (cs[5 - i / 10]'(by omega)).getLsbD (i % 10) := by
  simp only [stream, BitVec.getLsbD_cast, BitVec.getLsbD_append]
  interval_cases i <;> rfl

/-- The four padding bits are zero (rule R52). -/
theorem stream_getLsbD_padding (cs : Vector Code 6) {i : Nat} (hi : 60 ≤ i) : (stream cs).getLsbD i = false := by
  by_cases h64 : i < 64
  · simp only [stream, BitVec.getLsbD_cast, BitVec.getLsbD_append]
    interval_cases i <;> rfl
  · exact BitVec.getLsbD_of_ge _ _ (Nat.le_of_not_lt h64)

theorem stream_getElem (cs : Vector Code 6) {i : Nat} (hi : i < 64) :
    (stream cs)[i] = if h : i < 60 then (cs[5 - i / 10]'(by omega)).getLsbD (i % 10) else false := by
  rw [← BitVec.getLsbD_eq_getElem]
  split
  · next h => exact stream_getLsbD cs h
  · next h => exact stream_getLsbD_padding cs (Nat.le_of_not_lt h)

/-- Bit `j` of the code of slot `k` stands at place `50 - 10 k + j` (rule R52). -/
theorem stream_getLsbD_slot (cs : Vector Code 6) {k j : Nat} (hk : k < 6) (hj : j < 10) :
    (stream cs).getLsbD (50 - 10 * k + j) = cs[k].getLsbD j := by
  have hslot : 5 - (50 - 10 * k + j) / 10 = k := by omega
  have hbit : (50 - 10 * k + j) % 10 = j := by omega
  rw [stream_getLsbD cs (by omega)]
  simp only [hslot, hbit]

/-- Place `i` of eight bytes holds bit `i mod 8` of byte `7 - i / 8` (rule R33). -/
theorem streamOfBytes_getLsbD (b : Vector Byte 8) {i : Nat} (hi : i < 64) :
    (streamOfBytes b).getLsbD i = (b[7 - i / 8]'(by omega)).getLsbD (i % 8) := by
  simp only [streamOfBytes, BitVec.getLsbD_cast, BitVec.getLsbD_append]
  interval_cases i <;> rfl

/-- Byte `m` of the frame is the stream from place `56 - 8 m` up (rules R88, R89). -/
theorem pack_getLsbD (cs : Vector Code 6) {m j : Nat} (hm : m < 8) (hj : j < 8) :
    ((pack cs)[m]).getLsbD j = (stream cs).getLsbD (56 - 8 * m + j) := by
  interval_cases m <;> interval_cases j <;> simp [pack, stream_getElem]

/-- Byte `m` of the frame is `S[63-8m : 56-8m]` (rule R88). -/
theorem pack_getElem (cs : Vector Code 6) {m : Nat} (hm : m < 8) :
    (pack cs)[m] = (stream cs).extractLsb' (56 - 8 * m) 8 := by
  refine BitVec.eq_of_getLsbD_eq fun j hj => ?_
  rw [pack_getLsbD cs hm hj, BitVec.getLsbD_extractLsb', decide_eq_true hj, Bool.true_and]

/-- Code `k` is `S[59-10k : 50-10k]` (rule R52). -/
theorem stream_extract_slot (cs : Vector Code 6) {k : Nat} (hk : k < 6) :
    (stream cs).extractLsb' (50 - 10 * k) 10 = cs[k] := by
  refine BitVec.eq_of_getLsbD_eq fun j hj => ?_
  rw [BitVec.getLsbD_extractLsb', decide_eq_true hj, Bool.true_and, stream_getLsbD_slot cs hk hj]

/-- The bytes of the frame, read as one value, are the stream (rule R33). -/
theorem streamOfBytes_pack (cs : Vector Code 6) : streamOfBytes (pack cs) = stream cs := by
  refine BitVec.eq_of_getLsbD_eq fun i hi => ?_
  have hplace : 56 - 8 * (7 - i / 8) + i % 8 = i := by omega
  rw [streamOfBytes_getLsbD _ hi, pack_getLsbD cs (by omega) (Nat.mod_lt i (by decide)), hplace]

/-- Slot `k` of the decoded frame is `S[59-10k : 50-10k]` (rule R54). -/
theorem unpack_getElem (b : Vector Byte 8) {k : Nat} (hk : k < 6) :
    (unpack b)[k] = (streamOfBytes b).extractLsb' (50 - 10 * k) 10 := by
  interval_cases k <;> rfl

/-- The padding reaches only the stream's top four places. -/
theorem streamOfBytes_setPadding (b : Vector Byte 8) (n : BitVec 4) {i : Nat} (hi : i < 60) :
    (streamOfBytes (b.set 0 (join n (b[0].extractLsb' 0 4) rfl))).getLsbD i = (streamOfBytes b).getLsbD i := by
  rw [streamOfBytes_getLsbD _ (by omega), streamOfBytes_getLsbD _ (by omega)]
  by_cases htop : i < 56
  · rw [Vector.getElem_set_ne _ _ (by omega)]
  · have hbyte : 7 - i / 8 = 0 := by omega
    have hbit : i % 8 < 4 := by omega
    simp only [hbyte, Vector.getElem_set_self, getLsbD_join, hbit, if_true, BitVec.getLsbD_extractLsb', decide_true,
      Bool.true_and, Nat.zero_add]

/-- Settles O36: byte, code and padding each stand where the stream has them. -/
theorem packedBytesAreTheStream : Obligations.PackedBytesAreTheStream := by
  intro cs
  refine ⟨streamOfBytes_pack cs, fun i => pack_getElem cs i.isLt, fun k => stream_extract_slot cs k.isLt, ?padding⟩
  case padding =>
    refine BitVec.eq_of_getLsbD_eq fun j _ => ?_
    rw [BitVec.getLsbD_extractLsb', stream_getLsbD_padding cs (Nat.le_add_right 60 j)]
    simp

/-- Settles O37: the decoded frame reads the stream below place 60, which holds the codes and not the padding. -/
theorem frameRoundTrip : Obligations.FrameRoundTrip := by
  refine ⟨fun cs => Vector.ext fun k hk => ?codes, fun b n => Vector.ext fun k hk => ?padding⟩
  case codes => rw [unpack_getElem _ hk, streamOfBytes_pack, stream_extract_slot cs hk]
  case padding =>
    rw [unpack_getElem _ hk, unpack_getElem _ hk]
    refine BitVec.eq_of_getLsbD_eq fun j hj => ?_
    rw [BitVec.getLsbD_extractLsb', BitVec.getLsbD_extractLsb', streamOfBytes_setPadding b n (by omega)]

/-- Settles O38: a place outside the field of position p belongs to another slot, or to the padding. -/
theorem onePositionChangesOnlyItsFrameBits : Obligations.OnePositionChangesOnlyItsFrameBits := by
  intro cs p hp code j hj
  rw [streamOfBytes_pack, streamOfBytes_pack]
  by_cases h60 : j < 60
  · rw [stream_getLsbD _ h60, stream_getLsbD _ h60, Vector.getElem_set_ne _ _ (by omega)]
  · rw [stream_getLsbD_padding _ (Nat.le_of_not_lt h60), stream_getLsbD_padding _ (Nat.le_of_not_lt h60)]

/-- Settles O39: the field of position p is the code of slot 6 - p, a table entry with at most one bit low. -/
theorem litTubeClearsOneStreamBit : Obligations.LitTubeClearsOneStreamBit := by
  intro cfg d p hp i hi
  have hplace : 10 * (p - 1) + i = 50 - 10 * (6 - p) + i := by omega
  rw [streamOfBytes_pack, hplace, stream_getLsbD_slot _ (by omega) hi, Vector.getElem_map, getLsbD_rom _ hi]

end Sys2Proof.Machine
end

section
/-! SUPPORT. The run of one commit (rules R84 to R94, R101, R104): where the accumulator, the bytes sent and the chain stand
in the stream of the slots, how many steps are left, and that a step moves both on; the obligations about a whole commit. -/

namespace Sys2Proof.Machine

/-! ## Where the data stand in the stream -/

/-- The place, counted from the first stage, that stage `i` of the chain takes in the stream of the bytes sent: bits stand
as in the stream with TX_MSB_FIRST, and mirrored in each byte without it (rules R25, R34). -/
def wirePlace (cfg : Config) (i : Nat) : Nat := if cfg.txMsbFirst then i else 8 * (i / 8) + (7 - i % 8)

theorem wirePlace_of_lt {i : Nat} (cfg : Config) (h : i < 8) :
    wirePlace cfg i = if cfg.txMsbFirst then i else 7 - i := by
  unfold wirePlace
  split <;> omega

theorem wirePlace_sub_eight {i : Nat} (cfg : Config) (h : ¬i < 8) : wirePlace cfg i = wirePlace cfg (i - 8) + 8 := by
  unfold wirePlace
  split <;> omega

/-- State `u` has sent `m` bytes of the frame of the slots that state `a` holds, and buffers the bits behind them. -/
structure FrameSent (a : State) (m : Nat) (u : State) : Prop where
  slot : u.slot = a.slot
  cfg : u.cfg = a.cfg
  /-- The padding and the codes consumed are the bits sent and the bits buffered (rule R91). -/
  count : 8 * m + u.pend.toNat = 4 + 10 * u.idx.toNat
  clear : AccClear u
  /-- The buffered bits are the stream behind the bytes sent. -/
  acc : ∀ i : Nat, i < 16 → 16 ≤ i + u.pend.toNat → u.acc.getLsbD i = (stream a.slot).getLsbD (48 + i - 8 * m)
  trace : u.trace = a.trace ++ ((pack a.slot).toList.take m).map Event.tx
  /-- The chain's first stages hold the bytes sent, the last one foremost. -/
  chain : a.cfg.Admissible → ∀ i : Nat, i < 60 → i < 8 * m →
    u.sr.getLsbD i = (stream a.slot).getLsbD (64 - 8 * m + wirePlace a.cfg i)

section
variable {a u : State} {m : Nat}

theorem FrameSent.after_tick (h : FrameSent a m u) : FrameSent a m (tick u) := { h with }

theorem FrameSent.after_goto (h : FrameSent a m u) (f : Fsm) : FrameSent a m (goto f u) := { h with }

/-- INIT counts the four padding bits as buffered (rule R77). -/
theorem frameSent_afterInit (a : State) : FrameSent a 0 (afterInit a) where
  slot := rfl
  cfg := rfl
  count := rfl
  clear := accClear_of_acc_zero rfl
  acc i hi hp := by
    have hpad : 60 ≤ 48 + i - 8 * 0 := by
      have h4 : (afterInit a).pend.toNat = 4 := rfl
      omega
    rw [stream_getLsbD_padding a.slot hpad, afterInit_acc]
    exact BitVec.getLsbD_zero
  trace := by simp
  chain _ i _ hi := absurd hi (by omega)

/-- FILL appends the next code of the stream below the buffered bits (rule R79). -/
theorem FrameSent.after_fill (h : FrameSent a m u) (hi : u.idx.toNat < 6) (hp : u.pend.toNat ≤ 6) :
    FrameSent a m (afterFill u hi) where
  slot := h.slot
  cfg := h.cfg
  count := by
    rw [afterFill_pend_toNat hi hp, afterFill_idx_toNat hi]
    have hcount := h.count
    omega
  clear := accClear_afterFill hi hp h.clear
  acc i h16 hbuf := by
    rw [afterFill_pend_toNat hi hp] at hbuf
    have hcount := h.count
    by_cases habove : 16 ≤ i + u.pend.toNat
    · rw [afterFill_acc_above hi hp habove]
      exact h.acc i h16 habove
    · obtain ⟨j, rfl⟩ := Nat.exists_eq_add_of_le (show 6 - u.pend.toNat ≤ i by omega)
      have hplace : 48 + (6 - u.pend.toNat + j) - 8 * m = 50 - 10 * u.idx.toNat + j := by omega
      have hj : j < 10 := by omega
      rw [afterFill_acc_code hi hp h.clear hj, hplace, stream_getLsbD_slot a.slot hi hj]
      simp only [h.slot]
  trace := h.trace
  chain := h.chain

/-- The top byte of the accumulator is the next byte of the frame (rules R81, R88). -/
theorem FrameSent.topByte (h : FrameSent a m u) (hp : 8 ≤ u.pend.toNat) (hm : m < 8) :
    u.acc.extractLsb' 8 8 = (pack a.slot)[m] := by
  refine BitVec.eq_of_getLsbD_eq fun j hj => ?_
  have hplace : 48 + (8 + j) - 8 * m = 56 - 8 * m + j := by omega
  rw [BitVec.getLsbD_extractLsb', decide_eq_true hj, Bool.true_and, h.acc (8 + j) (by omega) (by omega), hplace,
    pack_getLsbD a.slot hm hj]

/-- A byte sent is the next byte of the frame, and the buffered bits move up behind it (rule R81). -/
theorem FrameSent.after_byte (h : FrameSent a m u) (hp : ¬u.pend < 8) (hp16 : u.pend.toNat ≤ 16)
    (hi : u.idx.toNat ≤ 6) : FrameSent a (m + 1) (sendByte u) := by
  have hcount := h.count
  have hp8 : 8 ≤ u.pend.toNat := Nat.le_of_not_lt hp
  have hm : m < 8 := by omega
  have hbyte := h.topByte hp8 hm
  have hpend := sendByte_pend_toNat hp
  refine ⟨h.slot, h.cfg, ?count, accClear_sendByte hp h.clear, fun i h16 hbuf => ?acc, ?trace,
    fun hadm i h60 hsent => ?chain⟩
  case count =>
    rw [hpend, sendByte_idx]
    omega
  case acc =>
    rw [hpend] at hbuf
    have h8 : ¬i < 8 := by omega
    have hplace : 48 + (i - 8) - 8 * m = 48 + i - 8 * (m + 1) := by omega
    rw [sendByte_acc, BitVec.getLsbD_shiftLeft, decide_eq_true h16, decide_eq_false h8,
      h.acc (i - 8) (by omega) (by omega), hplace, Bool.not_false, Bool.and_self, Bool.true_and]
  case trace =>
    have hlen : m < (pack a.slot).toList.length := by rw [Vector.length_toList]; exact hm
    rw [sendByte_trace, h.trace, hbyte, List.take_succ_eq_append_getElem hlen, List.map_append, List.append_assoc]
    rfl
  case chain =>
    rw [sendByte_sr, h.cfg, chainTakeByte_low hadm _ _ h60, hbyte]
    by_cases h8 : i < 8
    · have hplace : 56 - 8 * m + wirePlace a.cfg i = 64 - 8 * (m + 1) + wirePlace a.cfg i := by omega
      have hlt : wirePlace a.cfg i < 8 := by
        unfold wirePlace
        split <;> omega
      rw [if_pos h8, ← wirePlace_of_lt a.cfg h8, pack_getLsbD a.slot hm hlt, hplace]
    · have hplace : 64 - 8 * m + wirePlace a.cfg (i - 8) = 64 - 8 * (m + 1) + (wirePlace a.cfg (i - 8) + 8) := by omega
      rw [if_neg h8, h.chain hadm (i - 8) (by omega) (by omega), wirePlace_sub_eight a.cfg h8, hplace]

/-- The last two bytes, with all codes consumed (rule R82). -/
theorem FrameSent.after_lastBytes (h : FrameSent a m u) (hp : u.pend = 16) (hi : u.idx = 6) :
    FrameSent a (m + 2) (sendByte (sendByte u)) := by
  have hfirst : FrameSent a (m + 1) (sendByte u) :=
    h.after_byte (by rw [hp]; decide) (by rw [hp]; decide) (by rw [hi]; decide)
  have hpend : (sendByte u).pend = 8 := by rw [sendByte_pend, hp]; decide
  have hidx : (sendByte u).idx = 6 := hi
  exact hfirst.after_byte (by rw [hpend]; decide) (by rw [hpend]; decide) (by rw [hidx]; decide)

end

/-! ## How many steps are left -/

/-- The steps that a commit still takes, by the FSM state and the counts of (`pend`, `idx`): a CHECK and a FILL for each
code not consumed, a CHECK and an OUTPUT for each byte not sent but the last, which shares its step, and DONE (rules R84,
R93). -/
def stepsLeft : Fsm → Nat × Nat → Nat
  | .idle, _ => 0
  | .init, _ => 28
  | .check, (p, i) => 2 * (6 - i) + 2 * ((p + 10 * (6 - i)) / 8) - 1
  | .fill, (p, i) => 2 * (6 - i) + 2 * ((p + 10 * (6 - i)) / 8) - 2
  | .output, (p, i) => 2 * (6 - i) + 2 * ((p + 10 * (6 - i)) / 8) - 2
  | .done, _ => 1

theorem stepsLeft_check_fill :
    ∀ x ∈ reachableCounts .check, x.1 < 8 → stepsLeft .check x = stepsLeft .fill x + 1 := by decide

theorem stepsLeft_check_output :
    ∀ x ∈ reachableCounts .check, 8 ≤ x.1 → stepsLeft .check x = stepsLeft .output x + 1 := by decide

theorem stepsLeft_fill_check :
    ∀ x ∈ reachableCounts .fill, stepsLeft .fill x = stepsLeft .check (x.1 + 10, x.2 + 1) + 1 := by decide

theorem stepsLeft_output_check :
    ∀ x ∈ reachableCounts .output, x.2 ≠ 6 → stepsLeft .output x = stepsLeft .check (x.1 - 8, x.2) + 1 := by decide

theorem stepsLeft_output_done : ∀ x ∈ reachableCounts .output, x.2 = 6 → stepsLeft .output x = 2 := by decide

/-- One step is left in DONE alone. -/
theorem done_of_stepsLeft_eq_one : ∀ f : Fsm, ∀ x ∈ reachableCounts f, stepsLeft f x = 1 → f = .done := by
  intro f
  cases f <;> decide

/-- At most 16 bits are buffered and six codes consumed (rule R91). -/
theorem counts_bounds : ∀ f : Fsm, ∀ x ∈ reachableCounts f, x.1 ≤ 16 ∧ x.2 ≤ 6 := by
  intro f
  cases f <;> decide

/-! ## One step of a commit -/

/-- State `u` stands `n` steps after state `a`, which has just accepted a COMMIT, with `m` bytes sent. -/
structure Committing (a : State) (m n : Nat) (u : State) : Prop where
  frame : SerializerFrame a u
  data : FrameSent a m u
  counts : (u.pend.toNat, u.idx.toNat) ∈ reachableCounts u.fsm
  left : stepsLeft u.fsm (u.pend.toNat, u.idx.toNat) + n = 28
  latch : u.latch = false
  rstIn : u.rstIn = a.rstIn.drop n

section
variable {a u : State} {m n : Nat}

/-- INIT is the first of the 28 steps. -/
theorem committing_afterInit (a : State) : Committing a 0 1 (afterInit (tick a)) where
  frame := (serializerFrame_tick a).trans (serializerFrame_afterInit _)
  data := { frameSent_afterInit (tick a) with }
  counts := List.mem_cons_self ..
  left := by
    show stepsLeft .check (4, 0) + 1 = 28
    decide
  latch := rfl
  rstIn := List.drop_one.symm

/-- A move of the serializer that leaves one step less is the next step of the commit. -/
theorem Committing.next {m' : Nat} {t : State} (h : Committing a m n u) (hframe : SerializerFrame (tick u) t)
    (hdata : FrameSent a m' t) (hcounts : (t.pend.toNat, t.idx.toNat) ∈ reachableCounts t.fsm)
    (hleft : stepsLeft u.fsm (u.pend.toNat, u.idx.toNat) = stepsLeft t.fsm (t.pend.toNat, t.idx.toNat) + 1)
    (hlatch : t.latch = u.latch) (hrst : t.rstIn = (tick u).rstIn) : Committing a m' (n + 1) t where
  frame := (h.frame.trans (serializerFrame_tick u)).trans hframe
  data := hdata
  counts := hcounts
  left := by
    have hn := h.left
    omega
  latch := hlatch.trans h.latch
  rstIn := by rw [hrst, tick_rstIn, h.rstIn, List.tail_drop]

theorem Committing.step_check (h : Committing a m n u) (hr : rstNow u = false) (hf : u.fsm = .check) :
    ∃ t, step u = .next t ∧ Committing a m (n + 1) t := by
  have hcounts := h.counts
  have he := counts_even _ _ hcounts
  rw [hf] at hcounts
  by_cases hp : u.pend < 8
  · have hi : u.idx ≠ 6 := mt idx_eq_six_iff.mp (counts_check_slotLeft _ hcounts hp)
    have hnext : Committing a m (n + 1) (goto .fill (tick u)) :=
      h.next (serializerFrame_goto _ _) (h.data.after_tick.after_goto _) (counts_check_fill _ hcounts hp)
        (hf ▸ stepsLeft_check_fill _ hcounts hp) rfl rfl
    exact ⟨_, step_of_case (.toFill hr hf he hp hi rfl), hnext⟩
  · have hp8 : 8 ≤ u.pend.toNat := Nat.le_of_not_lt hp
    have hnext : Committing a m (n + 1) (goto .output (tick u)) :=
      h.next (serializerFrame_goto _ _) (h.data.after_tick.after_goto _) (counts_check_output _ hcounts hp8)
        (hf ▸ stepsLeft_check_output _ hcounts hp8) rfl rfl
    exact ⟨_, step_of_case (.toOutput hr hf he hp rfl), hnext⟩

theorem Committing.step_fill (h : Committing a m n u) (hr : rstNow u = false) (hf : u.fsm = .fill) :
    ∃ t, step u = .next t ∧ Committing a m (n + 1) t := by
  have hcounts := h.counts
  have he := counts_even _ _ hcounts
  rw [hf] at hcounts
  obtain ⟨hp, hi⟩ := counts_fill_require _ hcounts
  have hpend := afterFill_pend_toNat (s := tick u) hi hp
  have hidx := afterFill_idx_toNat (s := tick u) hi
  have hnext : Committing a m (n + 1) (afterFill (tick u) hi) := by
    refine h.next (serializerFrame_afterFill (tick u) hi) (h.data.after_tick.after_fill hi hp) ?counts ?left rfl rfl
    case counts =>
      rw [hpend, hidx]
      exact counts_fill_check _ hcounts
    case left =>
      rw [hpend, hidx, hf]
      exact stepsLeft_fill_check _ hcounts
  exact ⟨_, step_of_case (.fill hr hf he hi hp rfl), hnext⟩

/-- An OUTPUT that is not the last sends one byte and returns to CHECK (rule R81). -/
theorem Committing.step_output (h : Committing a m n u) (hr : rstNow u = false) (hf : u.fsm = .output)
    (hi : u.idx ≠ 6) : ∃ t, step u = .next t ∧ Committing a (m + 1) (n + 1) t := by
  have hcounts := h.counts
  have he := counts_even _ _ hcounts
  obtain ⟨hp16, hi6⟩ := counts_bounds _ _ hcounts
  rw [hf] at hcounts
  have hp8 : 8 ≤ u.pend.toNat := counts_output_require _ hcounts
  have hp : ¬u.pend < 8 := Nat.not_lt.mpr hp8
  have hi' := mt idx_eq_six_iff.mpr hi
  have hpend := sendByte_pend_toNat (s := tick u) hp
  have hnext : Committing a (m + 1) (n + 1) (goto .check (sendByte (tick u))) := by
    refine h.next ((serializerFrame_sendByte _).trans (serializerFrame_goto _ _))
      ((h.data.after_tick.after_byte hp hp16 hi6).after_goto _) ?counts ?left rfl rfl
    case counts =>
      have hcheck := counts_output_check _ hcounts hi'
      simpa only [goto_fsm, goto_pend, goto_idx, hpend, sendByte_idx, tick_pend, tick_idx] using hcheck
    case left =>
      simp only [hf, goto_fsm, goto_pend, goto_idx, hpend, sendByte_idx, tick_pend, tick_idx]
      exact stepsLeft_output_check _ hcounts hi'
  have hcase : StepCase u (goto .check (sendByte (tick u))) := .output hr hf he hp hi rfl
  exact ⟨_, step_of_case hcase, hnext⟩

/-- The last OUTPUT sends the two remaining bytes and goes to DONE (rule R82). -/
theorem Committing.step_lastOutput (h : Committing a m n u) (hr : rstNow u = false) (hf : u.fsm = .output)
    (hi : u.idx = 6) : ∃ t, step u = .next t ∧ Committing a (m + 2) (n + 1) t := by
  have hcounts := h.counts
  rw [hf] at hcounts
  have hi' := idx_eq_six_iff.mp hi
  have h16 : u.pend = 16 := pend_eq_sixteen_iff.mpr (counts_output_last _ hcounts hi')
  obtain ⟨t, ht⟩ : ∃ t, t = goto .done (sendByte (sendByte (tick u))) := ⟨_, rfl⟩
  have hnext : Committing a (m + 2) (n + 1) t := by
    refine h.next ?frame ?data ?counts ?left ?latch ?rst
    case frame =>
      rw [ht]
      exact ((serializerFrame_sendByte _).trans (serializerFrame_sendByte _)).trans (serializerFrame_goto _ _)
    case data =>
      rw [ht]
      exact (h.data.after_tick.after_lastBytes h16 hi).after_goto _
    case counts =>
      simp only [ht, goto_pend, goto_idx, goto_fsm, sendByte_pend, sendByte_idx, tick_pend, tick_idx, h16, hi]
      decide
    case left =>
      rw [hf, stepsLeft_output_done _ hcounts hi', ht, goto_fsm]
      rfl
    case latch => simp only [ht, goto_latch, sendByte_latch, tick_latch]
    case rst => simp only [ht, goto_rstIn, sendByte_rstIn]
  exact ⟨t, step_of_case (.last hr hf h16 hi ht), hnext⟩

/-- Between INIT and DONE a commit takes its next step. -/
theorem Committing.step (h : Committing a m n u) (hr : rstNow u = false) (h1 : 1 ≤ n) (h27 : n < 27) :
    ∃ m' t, step u = .next t ∧ Committing a m' (n + 1) t := by
  have hleft := h.left
  cases hf : u.fsm with
  | idle => simp only [hf, stepsLeft] at hleft; omega
  | init => simp only [hf, stepsLeft] at hleft; omega
  | done => simp only [hf, stepsLeft] at hleft; omega
  | check => exact ⟨m, h.step_check hr hf⟩
  | fill => exact ⟨m, h.step_fill hr hf⟩
  | output =>
    by_cases hi : u.idx = 6
    · exact ⟨m + 2, h.step_lastOutput hr hf hi⟩
    · exact ⟨m + 1, h.step_output hr hf hi⟩

/-- A commit in one of its steps is busy. -/
theorem Committing.busy (h : Committing a m n u) (h27 : n ≤ 27) : busy u = true := by
  refine busy_iff.mpr fun hf => ?_
  have hleft := h.left
  simp only [hf, stepsLeft] at hleft
  omega

/-- From the state that has just accepted a COMMIT, every number of steps up to DONE. -/
theorem exists_run_committing (hf : a.fsm = .init) (he : a.pend.toNat % 2 = 0) (hno : noResetFor 28 a) (h1 : 1 ≤ n)
    (h27 : n ≤ 27) : ∃ m u, Host.Core.run Sys2Proof.core n a = .next u ∧ Committing a m n u := by
  induction n, h1 using Nat.le_induction with
  | base =>
    have hinit := step_of_case (.init hno.now hf he rfl)
    exact ⟨0, _, (run_succ hinit).trans run_zero, committing_afterInit a⟩
  | succ n h1 ih =>
    obtain ⟨m, u, hrun, hcommit⟩ := ih (by omega)
    obtain ⟨m', t, hstep, hnext⟩ := hcommit.step (hno.at (by omega) hcommit.rstIn) h1 (by omega)
    exact ⟨m', t, run_snoc hrun hstep, hnext⟩

/-- After 27 steps the commit is in DONE: all eight bytes are sent and nothing is buffered. -/
theorem Committing.at_done (h : Committing a m 27 u) : u.fsm = .done ∧ u.pend = 0 ∧ u.idx = 6 ∧ m = 8 := by
  have hleft := h.left
  have hcounts := h.counts
  have hcount := h.data.count
  have hf : u.fsm = .done := done_of_stepsLeft_eq_one _ _ hcounts (by omega)
  rw [hf, reachableCounts, List.mem_singleton, Prod.mk.injEq] at hcounts
  obtain ⟨hp, hi⟩ := hcounts
  exact ⟨hf, BitVec.eq_of_toNat_eq hp, idx_eq_six_iff.mpr hi, by omega⟩

end

/-! ## The whole commit -/

/-- The state that has just accepted the COMMIT at the port of `s`. -/
def afterAccept (s : State) : State := goto .init (consume s)

theorem step_commit {s : State} {rest : List (Option Byte)} (hr : rstNow s = false) (hf : s.fsm = .idle)
    (he : s.pend.toNat % 2 = 0) (hc : s.cmdIn = some 0x80 :: rest) : step s = .next (afterAccept s) :=
  step_of_case (.accept hr hf he 0x80 (cmdNow_of_cons hc) .commit rfl rfl)

/-- The state after the latch pulse that ends a commit in DONE. -/
def afterPulse (u : State) : State := goto .idle (latchDown (latchUp (tick u)))

theorem serializerFrame_afterPulse (u : State) : SerializerFrame u (afterPulse u) :=
  ((serializerFrame_tick u).trans (serializerFrame_latchPulse _)).trans (serializerFrame_goto _ _)

section
variable {s : State} {rest : List (Option Byte)} {n : Nat}

/-- From acceptance, every number of steps up to DONE. -/
theorem exists_run_commit (hf : s.fsm = .idle) (he : s.pend.toNat % 2 = 0) (hc : s.cmdIn = some 0x80 :: rest)
    (hno : noResetFor 29 s) (h1 : 1 ≤ n) (h27 : n ≤ 27) :
    ∃ m u, Host.Core.run Sys2Proof.core (n + 1) s = .next u ∧ Committing (afterAccept s) m n u := by
  have haccept := step_commit hno.now hf he hc
  obtain ⟨m, u, hrun, hcommit⟩ := exists_run_committing (a := afterAccept s) rfl he (hno.tail rfl) h1 h27
  exact ⟨m, u, (run_succ haccept).trans hrun, hcommit⟩

/-- A whole commit: 28 steps lead to DONE with the eight bytes sent, and the 29th is the latch pulse. -/
theorem exists_run_commit_done (hf : s.fsm = .idle) (he : s.pend.toNat % 2 = 0) (hc : s.cmdIn = some 0x80 :: rest)
    (hno : noResetFor 29 s) :
    ∃ u, Committing (afterAccept s) 8 27 u ∧ u.pend = 0 ∧ u.idx = 6 ∧
      Host.Core.run Sys2Proof.core 29 s = .next (afterPulse u) := by
  obtain ⟨m, u, hrun, hcommit⟩ := exists_run_commit hf he hc hno (n := 27) (by decide) (by decide)
  obtain ⟨hdone, hp, hi, rfl⟩ := hcommit.at_done
  have hno' : noResetFor 28 (afterAccept s) := hno.tail rfl
  have hr : rstNow u = false := hno'.at (by decide) hcommit.rstIn
  have heven : u.pend.toNat % 2 = 0 := by rw [hp]; rfl
  exact ⟨u, hcommit, hp, hi, run_snoc hrun (step_of_case (.done hr hdone heven rfl))⟩

/-- After the latch pulse the display holds the stream of the slots at acceptance, as the wire order places it. -/
theorem afterPulse_vis {a u : State} (h : Committing a 8 27 u) (hadm : a.cfg.Admissible) {i : Nat} (hi : i < 60) :
    (afterPulse u).vis.getLsbD i = (stream a.slot).getLsbD (wirePlace a.cfg i) := by
  have hvis : (afterPulse u).vis = u.sr.extractLsb' 0 60 := rfl
  have hchain := h.data.chain hadm i hi (by omega)
  simpa [hvis, BitVec.getLsbD_extractLsb', hi] using hchain

end

/-- Settles O33: the run to DONE has sent all eight bytes, and the latch pulse adds its two events. -/
theorem commitEmitsFrameThenOnePulse : Obligations.CommitEmitsFrameThenOnePulse := by
  intro s rest hf he hc hno
  obtain ⟨u, hcommit, hp, hi, hrun⟩ := exists_run_commit_done hf he hc hno
  obtain ⟨hslot, hhv, hlamp, herr, hecause, hcfg, hcmd⟩ := hcommit.frame.trans (serializerFrame_afterPulse u)
  have hacc : (afterPulse u).acc = 0 := acc_eq_zero_of_pend_zero hcommit.data.clear hp
  refine ⟨afterPulse u, hrun, ?trace, rfl, hacc, hp, hi, rfl, hslot, hhv, hlamp, herr, hecause, hcfg,
    ?rst, ?cmd⟩
  case trace =>
    have htake : (pack s.slot).toList.take 8 = (pack s.slot).toList := List.take_of_length_le (by simp)
    have htrace : u.trace = s.trace ++ ((pack s.slot).toList.take 8).map Event.tx := hcommit.data.trace
    have hpulse : (afterPulse u).trace = u.trace ++ [.latchRise] ++ [.latchFall] := rfl
    rw [hpulse, htrace, htake, commitEvents]
    simp
  case rst =>
    have hrst : (afterPulse u).rstIn = (s.rstIn.tail.drop 27).tail := congrArg List.tail hcommit.rstIn
    rw [hrst, List.tail_drop, ← List.drop_one, List.drop_drop]
  case cmd =>
    have hqueue : (afterAccept s).cmdIn = s.cmdIn.tail := rfl
    exact hcmd.trans (by rw [hqueue, hc, List.tail_cons])

/-- Settles O34: a commit is busy from its acceptance to DONE, and the latch pulse ends in IDLE. -/
theorem commitTakesTwentyEightSteps : Obligations.CommitTakesTwentyEightSteps := by
  intro s rest n hf he hc hno h1 h29
  obtain rfl | rfl | ⟨hlow, hhigh⟩ : n = 1 ∨ n = 29 ∨ (2 ≤ n ∧ n ≤ 28) := by omega
  · exact ⟨_, (run_succ (step_commit hno.now hf he hc)).trans run_zero, rfl⟩
  · obtain ⟨u, -, -, -, hrun⟩ := exists_run_commit_done hf he hc hno
    exact ⟨_, hrun, rfl⟩
  · obtain ⟨k, rfl⟩ := Nat.exists_eq_add_of_le' (show 1 ≤ n by omega)
    obtain ⟨m, u, hrun, hcommit⟩ := exists_run_commit hf he hc hno (n := k) (by omega) (by omega)
    refine ⟨u, hrun, ?_⟩
    rw [hcommit.busy (by omega), decide_eq_true (by omega)]

/-- Settles O49: with TX_MSB_FIRST the display holds the stream itself, whose fields are the codes of the slots. -/
theorem commitShowsEverySlot : Obligations.CommitShowsEverySlot := by
  intro s rest hf he hc hno hadm hmsb
  obtain ⟨u, hcommit, -, -, hrun⟩ := exists_run_commit_done hf he hc hno
  refine ⟨afterPulse u, hrun, fun p hp => BitVec.eq_of_getLsbD_eq fun j hj => ?_⟩
  have hslot : (afterAccept s).slot = s.slot := rfl
  have hplace : 10 * p - 10 + j = 50 - 10 * (6 - p) + j := by omega
  have hwire : wirePlace (afterAccept s).cfg (10 * p - 10 + j) = 10 * p - 10 + j := if_pos hmsb
  rw [visCode, BitVec.getLsbD_extractLsb', decide_eq_true hj, Bool.true_and, afterPulse_vis hcommit hadm (by omega),
    hwire, hslot, hplace, stream_getLsbD_slot _ (by omega) hj]

/-- Settles O50: without TX_MSB_FIRST the display holds the stream with each byte mirrored. -/
theorem reversedWireOrderMirrorsEachByte : Obligations.ReversedWireOrderMirrorsEachByte := by
  intro s rest hf he hc hno hadm hlsb
  obtain ⟨u, hcommit, -, -, hrun⟩ := exists_run_commit_done hf he hc hno
  refine ⟨afterPulse u, hrun, fun b hb => ?_⟩
  have hslot : (afterAccept s).slot = s.slot := rfl
  have hwire : wirePlace (afterAccept s).cfg b = 8 * (b / 8) + (7 - b % 8) := if_neg (Bool.eq_false_iff.mp hlsb)
  rw [afterPulse_vis hcommit hadm hb, hwire, hslot]

end Sys2Proof.Machine
end
